-- ==== Sys2Proof/Word.lean ====
section
/-! DEFINITION. The words the part's links carry: bytes and 16-bit words (spec 11, R206, R207). -/

namespace Sys2Proof

/-- One byte of a telegram or of a frame. -/
abbrev Byte := BitVec 8

/-- A 16-bit word: a check, a frame's tag. -/
abbrev Word16 := BitVec 16

end Sys2Proof
end

