-- ==== Sys2Proof/Syntax.lean ====
section
/-! DEFINITION. The commands of the block: one constructor of `Instr` for each row of spec/opcode_table.json.
The table gives the rows no operand bits; the operands are what the event's rule says it carries. -/

namespace Sys2Proof

/-- One of the two courier hatches (spec 00; R161). -/
inductive Hatch where
  | h0
  | h1
  deriving DecidableEq, Repr

/-- A level of a hardwired input (R48). -/
inductive Level where
  | low
  | high
  deriving DecidableEq, Repr

/-- The role of an actuator record: DRY for the dehumidifier, WET for the humidifier (R80). -/
inductive Role where
  | dry
  | wet
  deriving DecidableEq, Repr

/-- A telegram as the receiver sees it, after its start byte (R1, R206). The length byte is the number of
payload bytes. -/
structure Telegram where
  dest    : Byte
  src     : Byte
  kind    : Byte
  seq     : Byte
  payload : List Byte
  check   : Word16
  deriving DecidableEq, Repr

/-- A trunk frame after its start byte (R186, R207). The length field is the number of body bytes. `gap` is the
time in byte-times between the byte before the frame's start byte and that start byte (R186, log 5). -/
structure Frame where
  gap   : Nat
  kind  : Byte
  tag   : Word16
  body  : List Byte
  check : Word16
  deriving DecidableEq, Repr

/-- The commands: operations and events of spec/opcode_table.json, in the table's order. -/
inductive Instr where
  /-- TELEGRAM_RECEIVED (R9): the telegram that ends with its second check byte. -/
  | telegramReceived (t : Telegram)
  /-- BYTE_TIMEOUT (R2): the source byte, where it was received (R3). -/
  | byteTimeout (source : Option Byte)
  | sample
  | detAlarm
  | detRestore
  | detTrouble
  | slotEvent
  | doorState
  | status
  | badge
  | scan
  | close
  | confirm
  | cancel
  | undispatchedItem
  /-- TRANSMIT_START (R17): the quiet time, in byte-times, that the loop has reached (R7). -/
  | transmitStart (quiet : Nat)
  | lostStart
  | brokenAttempt
  | unicastSent
  | broadcastSent
  /-- ACKNOWLEDGE_SLOT_ANSWER (R18): the byte in the slot. -/
  | acknowledgeSlotAnswer (answer : Byte)
  | acknowledgeSlotExpiry
  /-- BUSY_RETRY_DELAY_EXPIRY (R18): the waiting item, named by its arrival order. -/
  | busyRetryDelayExpiry (arrival : Nat)
  | intervalTimerExpiry (address : Nat)
  /-- RAW_LEVEL_CHANGE (R49): the input line and its new raw level. -/
  | rawLevelChange (line : Nat) (level : Level)
  | settleTimerExpiry (line : Nat)
  | countdownExpiry (zone : Nat)
  | doorHeldTimerExpiry (address : Nat)
  | maintenanceExpiry (address : Nat)
  | staleTimerExpiry (zone : Nat)
  | minuteEpoch
  | runTimerExpiry (zone : Nat) (role : Role)
  | restTimerExpiry (zone : Nat) (role : Role)
  | openTimerExpiry (hatch : Hatch)
  | confirmWindowExpiry (hatch : Hatch)
  | unlockWindowExpiry (hatch : Hatch)
  | intakeTimerExpiry (hatch : Hatch)
  | catalogueCompletion
  /-- FRAME_RECEIVED (R186): the frame that ends with its second check byte. -/
  | frameReceived (f : Frame)
  | frameByteTimeout
  | identify
  | checkCode
  | setCode
  | readStatus
  | clearStatus
  | setClock
  | loadSegment
  | readEntry
  | clearTable
  | protect
  | unprotect
  | order
  | cancelOrder
  | inspectClear
  | fireReset
  | isolate
  | restore
  | maintUnlock
  | passDown
  | queryNode
  | restartPhase1
  | restartPhase2
  | unknownDirective
  | codeWriteCompletion
  | trunkSendStart
  | trunkSendComplete
  | carrierLoss
  | carrierReturn
  | powerOn
  | pin
  | supplyLow
  /-- START_BYTE_RECEIVED (R1): the quiet time, in byte-times, that the loop had reached (R2, R7). -/
  | startByteReceived (quiet : Nat)
  /-- LENGTH_ABOVE_40 (R2): the source byte, which has been received (R3). -/
  | lengthAbove40 (source : Byte)
  | frameLengthAbove600
  deriving DecidableEq, Repr

end Sys2Proof
end

