-- ==== Sys2Proof/WellFormed.lean ====
section
/-! DEFINITION. Which commands are well formed: their operands lie in the ranges the manual gives them. -/

namespace Sys2Proof

/-- A telegram's payload has 0 to 40 bytes (R1, R2); a longer length ends the reception at the length byte. -/
def Telegram.wellFormed (t : Telegram) : Bool := t.payload.length ≤ 40

/-- A frame's body has 0 to 600 bytes (R186). -/
def Frame.wellFormed (f : Frame) : Bool := f.body.length ≤ 600

/-- A node address, 1 to 126 (spec 00, Addresses and numbers). -/
def addressInRange (a : Nat) : Bool := 1 ≤ a && a ≤ 126

/-- The operands of a command lie in their ranges: addresses 1 to 126 (R24), lines 0 to 15 (R48), zones 0 to 15
(R42), payloads and bodies within their lengths (R2, R186). -/
def Instr.wellFormed : Instr → Bool
  | .telegramReceived t => t.wellFormed
  | .frameReceived f => f.wellFormed
  | .intervalTimerExpiry a => addressInRange a
  | .doorHeldTimerExpiry a => addressInRange a
  | .maintenanceExpiry a => addressInRange a
  | .rawLevelChange l _ => l < 16
  | .settleTimerExpiry l => l < 16
  | .countdownExpiry z => z < 16
  | .staleTimerExpiry z => z < 16
  | .runTimerExpiry z _ => z < 16
  | .restTimerExpiry z _ => z < 16
  | .byteTimeout _ => true
  | .sample => true
  | .detAlarm => true
  | .detRestore => true
  | .detTrouble => true
  | .slotEvent => true
  | .doorState => true
  | .status => true
  | .badge => true
  | .scan => true
  | .close => true
  | .confirm => true
  | .cancel => true
  | .undispatchedItem => true
  | .transmitStart _ => true
  | .lostStart => true
  | .brokenAttempt => true
  | .unicastSent => true
  | .broadcastSent => true
  | .acknowledgeSlotAnswer _ => true
  | .acknowledgeSlotExpiry => true
  | .busyRetryDelayExpiry _ => true
  | .minuteEpoch => true
  | .openTimerExpiry _ => true
  | .confirmWindowExpiry _ => true
  | .unlockWindowExpiry _ => true
  | .intakeTimerExpiry _ => true
  | .catalogueCompletion => true
  | .frameByteTimeout => true
  | .identify => true
  | .checkCode => true
  | .setCode => true
  | .readStatus => true
  | .clearStatus => true
  | .setClock => true
  | .loadSegment => true
  | .readEntry => true
  | .clearTable => true
  | .protect => true
  | .unprotect => true
  | .order => true
  | .cancelOrder => true
  | .inspectClear => true
  | .fireReset => true
  | .isolate => true
  | .restore => true
  | .maintUnlock => true
  | .passDown => true
  | .queryNode => true
  | .restartPhase1 => true
  | .restartPhase2 => true
  | .unknownDirective => true
  | .codeWriteCompletion => true
  | .trunkSendStart => true
  | .trunkSendComplete => true
  | .carrierLoss => true
  | .carrierReturn => true
  | .powerOn => true
  | .pin => true
  | .supplyLow => true
  | .startByteReceived _ => true
  | .lengthAbove40 _ => true
  | .frameLengthAbove600 => true

end Sys2Proof
end

