-- ==== Sys2Proof/Config.lean ====
section
/-! DEFINITION. What the manual leaves open, as constants without a body: no proof can see their values
(assumption log 5, 7, 13, 14, 17). -/

namespace Sys2Proof.Config

/-- Byte-times of the field loop in one tick of 10 ms (spec 00, Scope: bit rates are not covered; log 5). -/
opaque byteTimesPerTick : Nat

/-- What a torn code write leaves in the code store, of the old and the new code (R191; log 7). -/
opaque tornCode : List Byte → List Byte → List Byte

/-- Whether a remaining time that is not a whole second is shown rounded up (R38, R78, R93; log 14). -/
opaque secondsRoundUp : Nat → Bool

/-- The directive code a reply carries when the directive's body is empty (R188, R192; log 17). -/
opaque emptyBodyCode : Byte

/-- The number of a code that chapter 11 does not number: of the set named by the first argument, the member
at the place of the second (R207; log 13). -/
opaque wireCode : Nat → Nat → Byte

/-- What the 2 bytes of a run timer hold where it is ELAPSED (R93, R207; log 13). -/
opaque elapsedTimer : Word16

end Sys2Proof.Config
end

