-- ==== Sys2Proof/Machine/State.lean ====
section
/-! DEFINITION. The state of the K38 as plain data: every record the manual gives the fourteen blocks, and the
queue of commands that wait. One structure for each block (spec 00, Blocks). -/

namespace Sys2Proof.Machine

/-- A table of numbered places: the places that hold an entry, keys strictly rising; a place not listed is
absent or empty. -/
abbrev Table (α : Type) := List (Nat × α)

/-- A timer: stopped, or running with its remaining time in ticks of 10 ms (spec 00, Time; log 2). -/
abbrev Timer := Option Nat

/-- A label as it is sent: one byte for each character (R206). -/
abbrev Label := List Byte

/-! ## The node table (R24, R28) -/

/-- The ten node classes (R24). -/
inductive NodeClass where
  | probe | detector | slotStrip | lock | suppression | dehumidifier | humidifier | hatchReader | courierTerminal
  | pickDisplay
  deriving DecidableEq, Repr

/-- The supervision states (R28). -/
inductive Supervision where
  | ok | suspect | fault | silent
  deriving DecidableEq, Repr

/-- A node entry: the static fields of the load and the live fields (R24). -/
structure NodeEntry where
  cls        : NodeClass
  zone       : Nat
  interval   : Nat
  relay      : Bool
  slotBase   : Option Nat
  hatch      : Option Hatch
  sup        : Supervision
  timer      : Timer
  lastSeq    : Option Byte
  lineErrors : Nat
  condition  : Option Byte
  rangeMark  : Bool
  deriving DecidableEq, Repr

/-! ## The field loop (R7, R10, 1.4) -/

/-- The loop states (R7). -/
inductive LoopState where
  | quiet | receiving | answering | sending | awaiting
  deriving DecidableEq, Repr

/-- The answers of an acknowledge slot (R9, R206). -/
inductive Answer where
  | ack | busy
  deriving DecidableEq, Repr

/-- An item of the ingress ring (1.3). The telegram's length is the length of its payload. -/
structure RingItem where
  src     : Nat
  kind    : Byte
  seq     : Byte
  payload : List Byte
  unicast : Bool
  cls     : NodeClass
  deriving DecidableEq, Repr

/-- The classes of queued telegrams (1.4). -/
inductive TxClass where
  | display | actuator | lock | fire
  deriving DecidableEq, Repr

/-- Why PC queued an ACT_SET (R87, R90): the ON of STARTING, the OFF of STOPPING, an off telegram, or an ON whose
record has left STARTING before its outcome. -/
inductive ActPurpose where
  | startOn | stopOff | off | staleOn
  deriving DecidableEq, Repr

/-- The originator of a queued telegram with what its outcome belongs to. `live` is cleared when the record the
outcome would act on is gone or has moved on, so that the outcome is discarded (R53, R81, R110); `detached` is set
when the order of a PICK has left the list (R155). -/
inductive Origin where
  | release (zone : Nat) (live : Bool)
  | alert
  | lockSet (address : Nat) (live : Bool)
  | actSet (zone : Nat) (role : Role) (purpose : ActPurpose) (live : Bool)
  | pick (order : Nat) (detached : Bool)
  | pickWithdraw
  | result (hatch : Hatch)
  | passDown
  deriving DecidableEq, Repr

/-- The state of a queued item: in WAITING the remaining delay in ticks (1.4, R18). -/
inductive TxState where
  | ready
  | waiting (ticks : Nat)
  | onLoop
  deriving DecidableEq, Repr

/-- An item of the transmit queue (1.4). -/
structure TxItem where
  cls          : TxClass
  dest         : Nat
  kind         : Byte
  payload      : List Byte
  origin       : Origin
  seq          : Option Byte
  busyRetries  : Nat
  emptyRetries : Nat
  state        : TxState
  arrival      : Nat
  deriving DecidableEq, Repr

/-- The outcomes of a queued telegram (R20). -/
inductive TxOutcome where
  | delivered | refusedByNode | noAnswer | dropped
  deriving DecidableEq, Repr

/-- The Loop Interface. `quiet` counts byte-times since the loop last carried a byte; `tail` holds while bytes of a
telegram rejected for its length may still follow (R2); `answer` is what the part drove in the last acknowledge
slot of a received telegram (R9, log 4). -/
structure Lif where
  loop       : LoopState
  quiet      : Nat
  tail       : Bool
  ring       : List RingItem
  congested  : Bool
  txq        : List TxItem
  txSeq      : Byte
  txArrivals : Nat
  answer     : Option Answer
  deriving DecidableEq, Repr

/-- The Node Table block (R24, R32, R34, R35). -/
structure Nt where
  nodes         : Table NodeEntry
  unknownMarks  : List Nat
  detectorCount : List Nat
  healthyCount  : List Nat
  faultSilent   : Nat
  deriving DecidableEq, Repr

/-! ## Zones and lines (R42, R47, R48) -/

/-- The zone kinds (R42); NONE is the absence of an entry. -/
inductive ZoneKind where
  | storage | staging | handover | plant
  deriving DecidableEq, Repr

/-- The climate modes (R42). -/
inductive Mode where
  | auto | manual
  deriving DecidableEq, Repr

/-- The climate group of a zone entry (R42). -/
structure ClimateGroup where
  target   : Nat
  deadBand : Nat
  lo       : Nat
  hi       : Nat
  k        : Nat
  stale    : Nat
  dehum    : Option Nat
  hum      : Option Nat
  minRun   : Nat
  minRest  : Nat
  mode     : Mode
  deriving DecidableEq, Repr

/-- The abort policies (R42, R108). -/
inductive AbortPolicy where
  | resume | restart
  deriving DecidableEq, Repr

/-- The fire group of a zone entry (R42). -/
structure FireGroup where
  line      : Option Nat
  delay     : Nat
  policy    : AbortPolicy
  checkLine : Option Nat
  display   : Option Nat
  deriving DecidableEq, Repr

/-- The staging group of a zone entry (R42). -/
structure StagingGroup where
  amin : Nat
  rate : Nat
  deriving DecidableEq, Repr

/-- The handover group of a zone entry (R42). -/
structure HandoverGroup where
  hatch   : Hatch
  lock    : Nat
  staging : Nat
  deriving DecidableEq, Repr

/-- A zone entry (R42). -/
structure ZoneEntry where
  kind     : ZoneKind
  climate  : Option ClimateGroup
  fire     : FireGroup
  staging  : Option StagingGroup
  handover : Option HandoverGroup
  deriving DecidableEq, Repr

/-- The SITE entry (R47): the notice classes are those of the kinds 1 to 18. -/
structure SiteEntry where
  threshold : Nat
  classes   : List Nat
  ident     : List Byte
  deriving DecidableEq, Repr

/-- The Zone Table block. -/
structure Zt where
  zones : Table ZoneEntry
  site  : Option SiteEntry
  deriving DecidableEq, Repr

/-- The functions of an input line (R48). -/
inductive LineFunction where
  | unused | abort | manualRelease | dischargeOk | panelAlarm
  deriving DecidableEq, Repr

/-- An input line entry (R48). -/
structure LineEntry where
  function : LineFunction
  zone     : Nat
  active   : Level
  settle   : Nat
  settled  : Level
  timer    : Timer
  deriving DecidableEq, Repr

/-- The four conditions of a zone (R50). -/
structure Conditions where
  abort     : Bool
  manual    : Bool
  panel     : Bool
  discharge : Bool
  deriving DecidableEq, Repr

/-- The Line Unit: `raw` are the levels at the pins, `release` the outputs Q0 to Q7, `fault` the fault output. -/
structure Lu where
  lines      : Table LineEntry
  raw        : List Level
  conditions : List Conditions
  release    : List Bool
  fault      : Bool
  deriving DecidableEq, Repr

/-! ## Climate (R59, R72, R74) -/

/-- The band status of a zone (R59). -/
inductive Status where
  | unset | stale | inBand | high | low
  deriving DecidableEq, Repr

/-- The demand of a zone (R59). -/
inductive Demand where
  | none | dry | wet
  deriving DecidableEq, Repr

/-- The climate record of a zone (R59): accumulators in 1/160 of the unit, filtered values in 0.1 of the unit.
`fromNone` holds from a load that takes the zone from MANUAL to AUTO to its next sample, which decides the demand from
NONE whatever demand the record still holds (R71). -/
structure Climate where
  acc    : Int
  accT   : Int
  fRH    : Option Int
  fT     : Option Int
  status : Status
  stale  : Timer
  demand : Demand
  fromNone : Bool
  deriving DecidableEq, Repr

/-- The figures of one zone in an epoch (R72). -/
structure EpochZone where
  excess : Nat
  status : Status
  deriving DecidableEq, Repr

/-- An epoch: the figures of the zones 0 to 15 (R72). -/
abbrev Epoch := List EpochZone

/-- The Climate Unit. -/
structure Cu where
  climate    : List Climate
  epochTimer : Nat
  epochs     : List Epoch
  deriving DecidableEq, Repr

/-! ## Plant (R80) -/

/-- The states of an actuator record (R80). -/
inductive ActState where
  | off | starting | running | stopping | rest | failed | shut
  deriving DecidableEq, Repr

/-- The run timer of an actuator record (R80). -/
inductive RunTimer where
  | stopped
  | running (ticks : Nat)
  | elapsed
  deriving DecidableEq, Repr

/-- An actuator record (R80). -/
structure Actuator where
  zone  : Nat
  role  : Role
  node  : Nat
  state : ActState
  run   : RunTimer
  rest  : Timer
  owed  : Bool
  deriving DecidableEq, Repr

/-- The Plant Controller: the records by 2 · zone + (0 for DRY, 1 for WET). -/
structure Pc where
  actuators : Table Actuator
  deriving DecidableEq, Repr

/-! ## Fire (R95) -/

/-- The fire states (6.1). -/
inductive FireState where
  | normal | preAlarm | confirmed | countdown | held | released | isolated
  deriving DecidableEq, Repr

/-- A fire record (R95). `phase` counts the ticks of the running tenth (R106, log 22). -/
structure Fire where
  state          : FireState
  knock          : List Nat
  alarm          : List Nat
  remaining      : Option Nat
  phase          : Nat
  releaseFault   : Bool
  unconfirmed    : Bool
  pendingRelease : Bool
  deriving DecidableEq, Repr

/-- The Fire Zone Unit. -/
structure Fz where
  fire         : List Fire
  fireActive   : Bool
  pendingAlert : Bool
  deriving DecidableEq, Repr

/-! ## Locks (R53) -/

/-- The state a lock is commanded to (R53). -/
inductive LockState where
  | locked | unlocked
  deriving DecidableEq, Repr

/-- The claims of a lock record, each at most once (R53). -/
structure Claims where
  handover0   : Bool
  handover1   : Bool
  maintenance : Timer
  fireHold    : Bool
  deriving DecidableEq, Repr

/-- Whether a LOCK_SET of the record is in the queue or waits for a place (R53). -/
inductive SendState where
  | idle | inFlight | pending
  deriving DecidableEq, Repr

/-- The door contact as last reported (R53). -/
inductive DoorState where
  | unknown | opened | closed
  deriving DecidableEq, Repr

/-- A lock record (R53). -/
structure Lock where
  claims    : Claims
  commanded : LockState
  sent      : LockState
  send      : SendState
  fault     : Bool
  door      : DoorState
  doorTimer : Timer
  heldMark  : Bool
  deriving DecidableEq, Repr

/-- The Lock Arbiter: the records by node address. -/
structure La where
  locks : Table Lock
  deriving DecidableEq, Repr

/-! ## The catalogue (R122) -/

/-- The custody states of a cartridge (R122). -/
inductive CartState where
  | shelved | ordered | picked | manifested | away | inbound | staging | ready | missing
  deriving DecidableEq, Repr

/-- A cartridge record (R122). -/
structure Cartridge where
  label      : Label
  homeZone   : Nat
  homeSlot   : Nat
  state      : CartState
  exposure   : Nat
  hold       : Bool
  quarantine : Bool
  inspect    : Bool
  order      : Option Nat
  courier    : Option Nat
  dueBack    : Option Nat
  overdue    : Bool
  hatch      : Option Hatch
  staging    : Option Nat
  acclim     : Option Nat
  deriving DecidableEq, Repr

/-- The Catalogue. Its two indices are views of the records (R124, log 19). -/
structure Cat where
  cartridges : Table Cartridge
  deriving DecidableEq, Repr

/-! ## Orders and parties (R147, R151) -/

/-- The states of an order (R151). -/
inductive OrderState where
  | waiting | released | picked | manifested
  deriving DecidableEq, Repr

/-- What the pick display has been told (R151). SHOWN keeps the node that received the PICK (R155). -/
inductive Pick where
  | notSent
  | inFlight
  | shown (node : Nat)
  | undelivered
  deriving DecidableEq, Repr

/-- An open order (R151). -/
structure Order where
  number       : Nat
  index        : Nat
  courier      : Nat
  state        : OrderState
  pick         : Pick
  timeAccepted : Option Nat
  deriving DecidableEq, Repr

/-- The Order List, in acceptance order. -/
structure Ol where
  orders     : List Order
  lastNumber : Nat
  deriving DecidableEq, Repr

/-- The courier fields of a party entry (R147). -/
structure CourierFields where
  windowStart : Nat
  windowStop  : Nat
  outbound    : Bool
  inbound     : Bool
  loan        : Nat
  limit       : Nat
  held        : Nat
  deriving DecidableEq, Repr

/-- A party entry: a COURIER has courier fields, an OPERATOR none (R147). -/
structure Party where
  id      : Nat
  active  : Bool
  courier : Option CourierFields
  deriving DecidableEq, Repr

/-- The Party Table. -/
structure Pt where
  parties : Table Party
  deriving DecidableEq, Repr

/-! ## The handover engines (R161) -/

/-- The states of an engine (R161). -/
inductive EngineState where
  | idle | opened | scanning | confirm | release | intake
  deriving DecidableEq, Repr

/-- The direction of an exchange (R161). -/
inductive Direction where
  | out | inward
  deriving DecidableEq, Repr

/-- The sides of a hatch (9.2). -/
inductive Side where
  | reader | courier
  deriving DecidableEq, Repr

/-- An engine record (R161). -/
structure Engine where
  state        : EngineState
  direction    : Option Direction
  courier      : Option Nat
  operator     : Option Nat
  caseTag      : Option Nat
  caseTemp     : Option Int
  first        : Option Side
  doorOpened   : Bool
  list         : List Nat
  openTimer    : Timer
  confirmTimer : Timer
  unlockTimer  : Timer
  intakeTimer  : Timer
  deriving DecidableEq, Repr

/-! ## The trunk (R186 to R205) -/

/-- The result codes of replies (R188). -/
inductive Result where
  | ok | busy | unverified | mismatch | badForm | range | notFound | inUse | duplicate | limit | conflict | zoneActive
  | protected_ | latched | checksum | badState | active | flagged | notPermitted | full | owned
  deriving DecidableEq, Repr

/-- The credential states (10.3). -/
inductive Credential where
  | unverified | mismatch | verified
  deriving DecidableEq, Repr

/-- The loadable tables (R192). -/
inductive TableId where
  | node | zone | site | line | catalogue | party
  deriving DecidableEq, Repr

/-- The reasons of a NODE_STATE notice (R32). -/
inductive NodeReason where
  | recovered | missed | lost | trouble | noAnswer
  deriving DecidableEq, Repr

/-- The causes of a FIRE_STATE notice (R117). -/
inductive FireCause where
  | detAlarm | singleKnock | doubleKnock | healthyCount | panel | manualRelease | countdownLoaded | abort
  | abortReleased | expiry | fireReset | isolate | restore | zoneRemoved
  deriving DecidableEq, Repr

/-- The reasons of a LOCK_FAULT notice (R57). -/
inductive LockFaultReason where
  | refused | noAnswer | cleared
  deriving DecidableEq, Repr

/-- The reasons of an ACTUATOR_FAILED notice (R88). -/
inductive ActReason where
  | noAnswer | refused | detached | cleared
  deriving DecidableEq, Repr

/-- The reasons of a CARTRIDGE_STATE notice (R125). -/
inductive CartReason where
  | removed | picked | reshelved | shelvedEarly | returnedIrregular | inspectDue | ready | overdue | cleared
  deriving DecidableEq, Repr

/-- The reasons for which an order leaves the list (R159). -/
inductive OrderReason where
  | done | cancelled | flagged | quarantine
  deriving DecidableEq, Repr

/-- The causes of a handover's end (R185). -/
inductive HandoverCause where
  | doorClosed | close | intakeTimeout | fireCommit
  | cancel (side : Side) | openTimeout | unlockTimeout | fireAbort | noLock
  deriving DecidableEq, Repr

/-- Why a terminal telegram was ignored (R162). -/
inductive IgnoreReason where
  | noHatch | zoneMismatch
  deriving DecidableEq, Repr

/-- The set of reset causes (R201, R202). -/
structure ResetCauses where
  powerOn   : Bool
  pin       : Bool
  supplyLow : Bool
  restart   : Bool
  deriving DecidableEq, Repr

/-- What a notice carries, by kind (R203 and the rules named there). -/
inductive NoticeBody where
  /-- R202 -/
  | startup (causes : ResetCauses) (codeLost : Bool)
  /-- R117 -/
  | fireState (zone : Nat) (before after : FireState) (cause : FireCause) (address remaining : Option Nat)
      (releaseFault unconfirmed : Bool) (knocks alarms : Nat)
  /-- R105: `failed` for CHECK_FAILED, else CLEARED; the release line and the discharge-check line -/
  | releaseFault (zone : Nat) (failed : Bool) (line checkLine : Option Nat)
  /-- R110 -/
  | releaseUnconfirmed (zone node : Nat) (outcome : TxOutcome)
  /-- R32 -/
  | nodeState (address : Nat) (cls : NodeClass) (zone : Nat) (state : Supervision) (reason : NodeReason)
  /-- R35: a NODE_STATE notice with reason UNKNOWN_SOURCE -/
  | unknownSource (address : Nat) (kind : Byte)
  /-- R57 -/
  | lockFault (address : Nat) (commanded : LockState) (claims : Claims) (reason : LockFaultReason)
  /-- R58 -/
  | doorHeld (address : Nat) (commanded : LockState) (claims : Claims)
  /-- R88: the state before the failure and the command are absent for CLEARED (log 12) -/
  | actuatorFailed (zone : Nat) (role : Role) (node : Nat) (before : Option ActState) (on : Option Bool)
      (reason : ActReason)
  /-- R12 -/
  | ingressCongested
  /-- R139 -/
  | quarantine (zone marked removed : Nat)
  /-- R185: the cartridges with index and label, the due-back, the staging zone and the requirement -/
  | handoverResult (hatch : Hatch) (direction : Option Direction) (courier operator caseTag : Option Nat)
      (cause : HandoverCause) (cartridges : List (Nat × Label)) (dueBack : Option Nat) (staging : Option (Nat × Nat))
  /-- R69 -/
  | climateState (zone : Nat) (before after : Status) (fRH fT : Option Int) (demand : Demand)
  /-- R125 -/
  | cartridgeState (index : Nat) (label : Label) (before after : CartState) (hold quarantine inspect : Bool)
      (zone order courier : Option Nat) (reason : CartReason)
  /-- R125 -/
  | foreign (strip zone slot : Nat) (label : Label)
  /-- R125 -/
  | misfiled (strip zone slot : Nat) (label : Label) (index homeZone homeSlot : Nat) (state : CartState)
  /-- R159 -/
  | orderClosed (number : Nat) (label : Label) (index courier : Nat) (state : OrderState) (reason : OrderReason)
  /-- R155 -/
  | pickUndelivered (number : Nat) (label : Label) (display : Nat) (outcome : TxOutcome)
  /-- R162 -/
  | terminalIgnored (address : Nat) (cls : NodeClass) (zone : Nat) (hatch : Hatch) (kind : Byte) (reason : IgnoreReason)
  /-- R36 -/
  | relayed (src : Nat) (kind seq : Byte) (unicast : Bool) (payload : List Byte)
  deriving DecidableEq, Repr

/-- A queued notice with its class and its tag (R203, R204). -/
structure Notice where
  cls  : Nat
  tag  : Word16
  body : NoticeBody
  deriving DecidableEq, Repr

/-- The last load error (R195): the directive's code, the table id as received, the offset, the result code. -/
structure LoadError where
  directive : Byte
  table     : Byte
  offset    : Option Nat
  code      : Result
  deriving DecidableEq, Repr

/-- The protect flags (R196). -/
structure ProtectFlags where
  node      : Bool
  zone      : Bool
  site      : Bool
  line      : Bool
  catalogue : Bool
  party     : Bool
  deriving DecidableEq, Repr

/-- The status record (R201). -/
structure StatusRecord where
  causes        : ResetCauses
  credential    : Credential
  blank         : Bool
  writing       : Bool
  latch         : Bool
  lastLoadError : Option LoadError
  clockUnset    : Bool
  clock         : Nat
  restartArmed  : Bool
  noticesLost   : Nat
  protect       : ProtectFlags
  fireActive    : Bool
  fire          : List FireState
  congested     : Bool
  engine0       : EngineState
  engine1       : EngineState
  openOrders    : Nat
  deriving DecidableEq, Repr

/-- What a reply carries after its head (R188 and the directives' rules). -/
inductive ReplyBody where
  /-- nothing -/
  | empty
  /-- R194: the count applied -/
  | loaded (count : Nat)
  /-- R194: the table id as received and the offset of the failing entry, where there is one -/
  | loadRefused (table : Byte) (offset : Option Nat)
  /-- R190 -/
  | credential (state : Credential) (blank : Bool)
  /-- R198 -/
  | identity (ident : Option (List Byte)) (blank : Bool)
  /-- R201 -/
  | status (record : StatusRecord)
  /-- R199: the clock before the change -/
  | clock (before : Nat)
  /-- R38: the entry of a QUERY_NODE, as it stood -/
  | queried (entry : NodeEntry)
  /-- R38, R198: a place of the node table -/
  | node (entry : Option NodeEntry)
  /-- R78, R93, R121, R198 -/
  | zone (entry : Option ZoneEntry) (climate : Climate) (actuators : List Actuator) (fire : Fire)
  /-- R198 -/
  | site (entry : Option SiteEntry)
  /-- R198 -/
  | line (entry : Option LineEntry)
  /-- R146: the record and its current zone -/
  | cartridge (record : Option (Cartridge × Option Nat))
  /-- R160: the entry and the open orders of a courier -/
  | party (entry : Option Party) (openOrders : Nat)
  /-- R160 -/
  | order (order : Order)
  /-- R153 -/
  | ordered (number : Nat) (state : OrderState)
  /-- R158 -/
  | cancelled (state : OrderState)
  /-- R112: the zone's state, the size of the alarm set and the panel condition -/
  | fire (state : FireState) (alarms : Nat) (panel : Bool)
  /-- R55 -/
  | commanded (state : LockState)
  /-- R40 -/
  | outcome (o : TxOutcome)
  deriving DecidableEq, Repr

/-- A reply: its tag, the directive's code, the result and the body (R188). `restarts` marks the reply of an
accepted RESTART phase 2 (R200). -/
structure Reply where
  tag      : Word16
  code     : Byte
  result   : Result
  body     : ReplyBody
  restarts : Bool
  deriving DecidableEq, Repr

/-- A directive of the ingress: its tag and its body (R186, R187). -/
structure Directive where
  tag  : Word16
  body : List Byte
  deriving DecidableEq, Repr

/-- The Code Store (R191): the code, whether its check is good, and the new code of a write in progress. -/
structure Cs where
  code    : List Byte
  checkOk : Bool
  writing : Option (List Byte)
  deriving DecidableEq, Repr

/-- What TI reads of the part's state in the event in which it takes a directive: whether the credential was VERIFIED
(R189), CS (R190), and what the pass-down filter refuses, none for another directive (R39). -/
structure Taking where
  verified : Bool
  cs       : Cs
  filter   : Option Result
  deriving DecidableEq, Repr

/-- The directive in hand (R187). `deciding`: TI has taken it from the ingress, and the row of its code decides it, with what
TI read when it took it. The others wait for a later event, with what that event needs: for a catalogue load the first index
and the entries as received. -/
inductive InHand where
  | deciding (d : Directive) (read : Taking)
  | passDown (d : Directive)
  | catalogueLoad (d : Directive) (first count : Nat) (entries : List Byte)
  | catalogueClear (d : Directive)
  deriving DecidableEq, Repr

/-- The frame being sent (R188): the oldest reply, which stays in the list until its last byte, or a notice that
has left its queue. -/
inductive Sending where
  | reply (r : Reply)
  | notice (n : Notice)
  deriving DecidableEq, Repr

/-- The Trunk Interface. `clockTicks` counts the ticks of the running second (log 22); `frameTail` holds while
bytes of a frame rejected for its length may still follow (R186). -/
structure Ti where
  ingress        : List Directive
  inHand         : Option InHand
  replies        : List Reply
  sending        : Option Sending
  notices        : List Notice
  noticeTag      : Word16
  noticesLost    : Nat
  credential     : Credential
  latch          : Bool
  lastLoadError  : Option LoadError
  clock          : Nat
  clockSet       : Bool
  clockTicks     : Nat
  restartArmed   : Bool
  restartPending : Bool
  protect        : ProtectFlags
  causes         : ResetCauses
  carrier        : Bool
  frameTail      : Bool
  deriving DecidableEq, Repr

/-- The K38, block by block, and the queue of commands that wait, first in first out (log 20). -/
structure State where
  pending : List Instr
  lif     : Lif
  nt      : Nt
  zt      : Zt
  lu      : Lu
  cu      : Cu
  pc      : Pc
  fz      : Fz
  la      : La
  cat     : Cat
  ol      : Ol
  pt      : Pt
  he0     : Engine
  he1     : Engine
  ti      : Ti
  cs      : Cs
  deriving DecidableEq, Repr

/-- Why a step stops with a fault. No command of the block has a fault: the manual discards what is damaged and
answers what is refused, so this type has no member. Safe: nothing stops. -/
inductive Fault where
  deriving DecidableEq, Repr

/-- Why a command has no meaning. -/
inductive Refusal where
  /-- Raised by `exec` alone, for a command whose meaning is not written yet. Safe: the model stops. No arm raises
  it in this model. -/
  | notModelled (mnemonic : String)
  deriving DecidableEq, Repr

/-- The empty climate record (R59). -/
def Climate.empty : Climate :=
  { acc := 0, accT := 0, fRH := none, fT := none, status := .unset, stale := none, demand := .none, fromNone := false }

/-- The fire record after a reset (R95). -/
def Fire.initial : Fire :=
  { state := .normal, knock := [], alarm := [], remaining := none, phase := 0, releaseFault := false,
    unconfirmed := false, pendingRelease := false }

/-- All four conditions inactive (R48). -/
def Conditions.inactive : Conditions := { abort := false, manual := false, panel := false, discharge := false }

/-- An IDLE engine (R161). -/
def Engine.idle : Engine :=
  { state := .idle, direction := none, courier := none, operator := none, caseTag := none, caseTemp := none,
    first := none, doorOpened := false, list := [], openTimer := none, confirmTimer := none, unlockTimer := none,
    intakeTimer := none }

/-- No table protected (R196). -/
def ProtectFlags.clear : ProtectFlags :=
  { node := false, zone := false, site := false, line := false, catalogue := false, party := false }

/-- The machine right after a power-on: R15, R23, R41, R47, R48, R51 to R53, R59, R79, R94, R95, R122, R147, R151,
R160, R161, R187 to R189, R191, R195, R196, R199 to R204. The raw levels and the carrier are the outside's (log 6);
the code store is blank (log 7). -/
def State.reset : State where
  pending := []
  lif := { loop := .quiet, quiet := 0, tail := false, ring := [], congested := false, txq := [], txSeq := 0#8,
           txArrivals := 0, answer := none }
  nt := { nodes := [], unknownMarks := [], detectorCount := List.replicate 16 0, healthyCount := List.replicate 16 0,
          faultSilent := 0 }
  zt := { zones := [], site := none }
  lu := { lines := [], raw := List.replicate 16 .low, conditions := List.replicate 16 Conditions.inactive,
          release := List.replicate 8 false, fault := true }
  cu := { climate := List.replicate 16 Climate.empty, epochTimer := 6000, epochs := [] }
  pc := { actuators := [] }
  fz := { fire := List.replicate 16 Fire.initial, fireActive := false, pendingAlert := false }
  la := { locks := [] }
  cat := { cartridges := [] }
  ol := { orders := [], lastNumber := 0 }
  pt := { parties := [] }
  he0 := Engine.idle
  he1 := Engine.idle
  ti := { ingress := [], inHand := none, replies := [], sending := none,
          notices := [{ cls := 3, tag := 0#16,
                        body := .startup { powerOn := true, pin := false, supplyLow := false, restart := false } false }],
          noticeTag := 1#16, noticesLost := 0, credential := .unverified, latch := false, lastLoadError := none,
          clock := 0, clockSet := false, clockTicks := 0, restartArmed := false, restartPending := false,
          protect := ProtectFlags.clear,
          causes := { powerOn := true, pin := false, supplyLow := false, restart := false },
          carrier := true, frameTail := false }
  cs := { code := List.replicate 6 0#8, checkOk := true, writing := none }

end Sys2Proof.Machine
end

