-- ==== Sys2Proof/Machine/Ops.lean ====
section
/-! DEFINITION. The named operations every block uses: tables of numbered places, sets of addresses, bytes and
their order, the check (R206), durations in ticks, and the accessors of the records that stand in each block. -/

namespace Sys2Proof.Machine

/-! ## Optional values -/

/-- The optional value meets a test; nothing meets none. -/
def meets {α : Type} (o : Option α) (p : α → Bool) : Bool :=
  match o with
  | some a => p a
  | none => false

/-! ## Tables and sets -/

/-- The entry at a place, if there is one. -/
def Table.get {α : Type} : Table α → Nat → Option α
  | [], _ => none
  | (i, x) :: t, k => if i = k then some x else Table.get t k

/-- The table with an entry placed at `k`, keys kept in ascending order. -/
def Table.put {α : Type} : Table α → Nat → α → Table α
  | [], k, a => [(k, a)]
  | (i, x) :: t, k, a =>
    if k < i then (k, a) :: (i, x) :: t
    else if k = i then (k, a) :: t
    else (i, x) :: Table.put t k a

/-- The table with the place `k` absent. -/
def Table.del {α : Type} : Table α → Nat → Table α
  | [], _ => []
  | (i, x) :: t, k => if i = k then Table.del t k else (i, x) :: Table.del t k

/-- Place or remove: what a load does to a place (R194). -/
def Table.set {α : Type} (t : Table α) (k : Nat) : Option α → Table α
  | some a => Table.put t k a
  | none => Table.del t k

/-- Keys strictly rising: the one form a table's contents have. -/
def Table.wf {α : Type} : Table α → Bool
  | [] => true
  | (k, _) :: t => t.all (fun p => k < p.1) && Table.wf t

/-- The first place whose entry meets a test. -/
def Table.findKey {α : Type} (t : Table α) (p : Nat → α → Bool) : Option Nat :=
  (t.find? (fun q => p q.1 q.2)).map (·.1)

/-- Whether some place other than `k` holds an entry that meets a test. -/
def Table.anyOther {α : Type} (t : Table α) (k : Nat) (p : α → Bool) : Bool :=
  t.any (fun q => q.1 ≠ k && p q.2)

/-- The set of addresses with `a` a member, ascending (R95, R121). -/
def setInsert : List Nat → Nat → List Nat
  | [], a => [a]
  | x :: l, a => if a < x then a :: x :: l else if a = x then x :: l else x :: setInsert l a

/-- The set of addresses without `a`. -/
def setErase (l : List Nat) (a : Nat) : List Nat := l.filter (· ≠ a)

/-- Members strictly rising: the one form a set has. -/
def setWf : List Nat → Bool
  | [] => true
  | x :: l => l.all (x < ·) && setWf l

/-! ## Bytes (R206, R207) -/

/-- Two bytes, least significant first, as a number. -/
def le2 (b0 b1 : Byte) : Nat := b0.toNat + 256 * b1.toNat

/-- A number in `n` bytes, least significant first. -/
def leBytes : Nat → Nat → List Byte
  | 0, _ => []
  | n + 1, v => BitVec.ofNat 8 v :: leBytes n (v / 256)

/-- Bytes, least significant first, as a number. -/
def leNat : List Byte → Nat
  | [] => 0
  | b :: bs => b.toNat + 256 * leNat bs

/-- A 16-bit field read as two's complement (R206). -/
def signed16 (n : Nat) : Int := if n < 32768 then (n : Int) else (n : Int) - 65536

/-- One bit shifted into the check register: the generator is 0x1021 (R206). -/
def crcBit (r : Word16) (b : Bool) : Word16 :=
  let top := r.getLsbD 15
  let r' := r <<< 1
  if top != b then r' ^^^ 0x1021#16 else r'

/-- One byte shifted in, most significant bit first (R206). -/
def crcByte (r : Word16) (b : Byte) : Word16 :=
  [7, 6, 5, 4, 3, 2, 1, 0].foldl (fun r i => crcBit r (b.getLsbD i)) r

/-- The check over bytes, the register starting at 0xFFFF, the result not inverted (R1, R186, R206). -/
def crc (bs : List Byte) : Word16 := bs.foldl crcByte 0xFFFF#16

/-- The two bytes of a check as sent, low byte first (R206). -/
def checkBytes (c : Word16) : List Byte := leBytes 2 c.toNat

/-- The checked bytes of a telegram: destination, source, kind, sequence, length and payload (R1). -/
def telegramChecked (t : Telegram) : List Byte :=
  [t.dest, t.src, t.kind, t.seq, BitVec.ofNat 8 t.payload.length] ++ t.payload

/-- The check received is the check computed (R1). -/
def telegramCheckMatches (t : Telegram) : Bool := crc (telegramChecked t) = t.check

/-- The checked bytes of a frame: length, frame kind, tag and body (R186). -/
def frameChecked (f : Frame) : List Byte :=
  leBytes 2 f.body.length ++ [f.kind] ++ leBytes 2 f.tag.toNat ++ f.body

/-- The check received is the check computed (R186). -/
def frameCheckMatches (f : Frame) : Bool := crc (frameChecked f) = f.check

/-- A character a label may hold: A to Z, 0 to 9 and the hyphen (R122, R206). -/
def labelChar (b : Byte) : Bool :=
  (0x41 ≤ b.toNat && b.toNat ≤ 0x5A) || (0x30 ≤ b.toNat && b.toNat ≤ 0x39) || b.toNat = 0x2D

/-- Every character lies in the label set (R124). -/
def labelOk (l : Label) : Bool := l.all labelChar

/-! ## Durations: a tick is 10 ms (log 2) -/

/-- Whole seconds in ticks. -/
def secs (n : Nat) : Nat := 100 * n

/-- The node's interval timer afresh: stopped when the interval is 0 (R26, R28). -/
def intervalTimer (seconds : Nat) : Timer := if seconds = 0 then none else some (secs seconds)

/-- A timer has run out: it runs, nothing of its time remains, and its expiry may be taken (log 2). -/
def timerDue (t : Timer) : Bool := t = some 0

/-- A remaining time as whole seconds; what a part of a second makes of it is open (log 14). -/
def shownSeconds (ticks : Nat) : Nat :=
  if ticks % 100 = 0 then ticks / 100
  else ticks / 100 + (if Config.secondsRoundUp ticks then 1 else 0)

/-! ## Zones, hatches and engines -/

/-- The zones in ascending order. -/
def zoneNumbers : List Nat := List.range 16

/-- The number of a hatch. -/
def hatchNumber : Hatch → Nat
  | .h0 => 0
  | .h1 => 1

/-- The hatch of a number, where there is one (R24, R42). -/
def hatchOf : Nat → Option Hatch
  | 0 => some .h0
  | 1 => some .h1
  | _ => none

/-- The node entry at an address (R24). -/
def State.node (s : State) (a : Nat) : Option NodeEntry := Table.get s.nt.nodes a

/-- The state with a node entry changed. -/
def State.setNode (s : State) (a : Nat) (e : NodeEntry) : State :=
  { s with nt := { s.nt with nodes := Table.put s.nt.nodes a e } }

/-- Whether the address holds an entry of a class. -/
def State.hasClass (s : State) (a : Nat) (c : NodeClass) : Bool :=
  match s.node a with
  | some e => e.cls = c
  | none => false

/-- The zone entry of a zone (R42). -/
def State.zone (s : State) (z : Nat) : Option ZoneEntry := Table.get s.zt.zones z

/-- The climate group of a zone, where it has one (R59). -/
def State.climateGroup (s : State) (z : Nat) : Option ClimateGroup := (s.zone z).bind (·.climate)

/-- The fire record of a zone (R95). -/
def State.fire (s : State) (z : Nat) : Fire := s.fz.fire.getD z Fire.initial

/-- The state with a fire record changed. -/
def State.setFire (s : State) (z : Nat) (f : Fire) : State :=
  { s with fz := { s.fz with fire := s.fz.fire.set z f } }

/-- The climate record of a zone (R59). -/
def State.climate (s : State) (z : Nat) : Climate := s.cu.climate.getD z Climate.empty

/-- The state with a climate record changed. -/
def State.setClimate (s : State) (z : Nat) (c : Climate) : State :=
  { s with cu := { s.cu with climate := s.cu.climate.set z c } }

/-- The conditions of a zone's lines (R50). -/
def State.conditions (s : State) (z : Nat) : Conditions := s.lu.conditions.getD z Conditions.inactive

/-- The healthy count of a zone as last handed to FZ (R34, R95). -/
def State.healthy (s : State) (z : Nat) : Nat := s.nt.healthyCount.getD z 0

/-- The lock record at an address (R53). -/
def State.lock (s : State) (a : Nat) : Option Lock := Table.get s.la.locks a

/-- The state with a lock record changed. -/
def State.setLock (s : State) (a : Nat) (l : Lock) : State :=
  { s with la := { s.la with locks := Table.put s.la.locks a l } }

/-- The place of an actuator record: 2 · zone, and 1 more for WET (R80). -/
def actKey (z : Nat) : Role → Nat
  | .dry => 2 * z
  | .wet => 2 * z + 1

/-- The actuator record of a zone's role (R80). -/
def State.actuator (s : State) (z : Nat) (r : Role) : Option Actuator := Table.get s.pc.actuators (actKey z r)

/-- The state with an actuator record changed. -/
def State.setActuator (s : State) (z : Nat) (r : Role) (a : Actuator) : State :=
  { s with pc := { s.pc with actuators := Table.put s.pc.actuators (actKey z r) a } }

/-- The cartridge record at an index (R122). -/
def State.cartridge (s : State) (i : Nat) : Option Cartridge := Table.get s.cat.cartridges i

/-- The state with a cartridge record changed. -/
def State.setCartridge (s : State) (i : Nat) (c : Cartridge) : State :=
  { s with cat := { s.cat with cartridges := Table.put s.cat.cartridges i c } }

/-- The label index (R124). -/
def State.indexOfLabel (s : State) (l : Label) : Option Nat :=
  if labelOk l then Table.findKey s.cat.cartridges (fun _ c => c.label = l) else none

/-- The home-slot index (R124). -/
def State.indexOfSlot (s : State) (z slot : Nat) : Option Nat :=
  Table.findKey s.cat.cartridges (fun _ c => c.homeZone = z && c.homeSlot = slot)

/-- The engine of a hatch (R161). -/
def State.engine (s : State) : Hatch → Engine
  | .h0 => s.he0
  | .h1 => s.he1

/-- The state with an engine record changed. -/
def State.setEngine (s : State) (h : Hatch) (e : Engine) : State :=
  match h with
  | .h0 => { s with he0 := e }
  | .h1 => { s with he1 := e }

/-- The HANDOVER zone entry of a hatch, with its zone: the engine's hatch zone (R161). -/
def State.hatchZone (s : State) (h : Hatch) : Option (Nat × HandoverGroup) :=
  s.zt.zones.findSome? (fun p =>
    match p.2.handover with
    | some g => if g.hatch = h then some (p.1, g) else none
    | none => none)

/-- The hatch whose HANDOVER zone names a lock node: the lock is a hatch lock (R53). -/
def State.hatchOfLock (s : State) (a : Nat) : Option Hatch :=
  s.zt.zones.findSome? (fun p =>
    match p.2.handover with
    | some g => if g.lock = a then some g.hatch else none
    | none => none)

/-- The open order of a number (R151). -/
def State.order (s : State) (n : Nat) : Option Order := s.ol.orders.find? (fun o => o.number = n)

/-- The state with an open order changed, its place in the list kept. -/
def State.setOrder (s : State) (o : Order) : State :=
  { s with ol := { s.ol with orders := s.ol.orders.map (fun p => if p.number = o.number then o else p) } }

/-- The place of the party with an id (R147). -/
def State.partyKey (s : State) (id : Nat) : Option Nat := Table.findKey s.pt.parties (fun _ p => p.id = id)

/-- The party with an id (R147). -/
def State.party (s : State) (id : Nat) : Option Party := (s.partyKey id).bind (Table.get s.pt.parties)

/-- The open orders of a courier (R149). -/
def State.openOrders (s : State) (id : Nat) : Nat := (s.ol.orders.filter (fun o => o.courier = id)).length

/-- The held count of a courier (R147, R149). -/
def State.heldCount (s : State) (id : Nat) : Nat :=
  match (s.party id).bind (·.courier) with
  | some c => c.held
  | none => 0

/-- The courier's sum: its held count plus its open orders (R149). -/
def State.courierSum (s : State) (id : Nat) : Nat := s.heldCount id + s.openOrders id

/-- The acknowledge slot of a received telegram is over: the answer has been sent, and the loop is QUIET (R7, log 4). -/
def Lif.slotOver (l : Lif) : Lif :=
  if l.loop = .answering then { l with loop := .quiet, quiet := 0, answer := none } else l

/-- CAT is busy from the taking of a catalogue load or clear to its completion (R142, log 19). -/
def State.catBusy (s : State) : Bool :=
  match s.ti.inHand with
  | some (.catalogueLoad _ _ _ _) => true
  | some (.catalogueClear _) => true
  | some (.passDown _) => false
  | some (.deciding ..) => false
  | none => false

/-- The current zone of a cartridge, by its state (R123). -/
def State.currentZone (s : State) (c : Cartridge) : Option Nat :=
  match c.state with
  | .shelved => some c.homeZone
  | .ordered => some c.homeZone
  | .picked => some c.homeZone
  | .manifested => c.hatch.bind (fun h => (s.hatchZone h).map (·.1))
  | .inbound => c.hatch.bind (fun h => (s.hatchZone h).map (·.1))
  | .staging => c.staging
  | .ready => c.staging
  | .away => none
  | .missing => none

/-- The suppression node of a zone (R25, R95). -/
def State.suppressionNode (s : State) (z : Nat) : Option Nat :=
  Table.findKey s.nt.nodes (fun _ e => e.cls = .suppression && e.zone = z)

/-- The terminal of a class at a hatch (R161). -/
def State.terminal (s : State) (c : NodeClass) (h : Hatch) : Option Nat :=
  Table.findKey s.nt.nodes (fun _ e => e.cls = c && e.hatch = some h)

end Sys2Proof.Machine
end

