-- ==== Sys2Proof/Machine/Flags.lean ====
section
/-! DEFINITION. The flags and conditions the part computes from its records: line conditions (R50), the outputs
(R51, R52), FIRE_ACTIVE (R119), FIRE_HOLD (R54), the commanded state (R56), band status, demand and excess (R67,
R70, R72), the courier's window (R148). -/

namespace Sys2Proof.Machine

/-! ## Lines and outputs -/

/-- A line settled active (R49). -/
def LineEntry.isActive (l : LineEntry) : Bool := l.settled = l.active

/-- Some line of a function naming the zone is settled active (R50). -/
def State.anyLine (s : State) (f : LineFunction) (z : Nat) : Bool :=
  s.lu.lines.any (fun p => p.2.function = f && p.2.zone = z && p.2.isActive)

/-- The discharge condition: the zone's entry names a discharge-check line, and that line has an entry of function
DISCHARGE_OK naming the same zone, settled active (R50). -/
def State.dischargeCondition (s : State) (z : Nat) : Bool :=
  match (s.zone z).bind (·.fire.checkLine) with
  | none => false
  | some n =>
    match Table.get s.lu.lines n with
    | some l => l.function = .dischargeOk && l.zone = z && l.isActive
    | none => false

/-- The four conditions of a zone as its lines stand (R50). -/
def State.computeConditions (s : State) (z : Nat) : Conditions :=
  { abort := s.anyLine .abort z, manual := s.anyLine .manualRelease z, panel := s.anyLine .panelAlarm z,
    discharge := s.dischargeCondition z }

/-- Every zone's conditions set again within a load, with no edge handed on (R45, R48). -/
def State.reloadConditions (s : State) : State :=
  { s with lu := { s.lu with conditions := zoneNumbers.map s.computeConditions } }

/-- A zone in trouble: its healthy count is below its detector count (R34). -/
def State.inTrouble (s : State) (z : Nat) : Bool := s.healthy z < s.nt.detectorCount.getD z 0

/-- What asserts the fault output (R52). -/
def State.faultCondition (s : State) : Bool :=
  s.zt.site.isNone || zoneNumbers.any (fun z => s.inTrouble z || (s.fire z).releaseFault) || 0 < s.nt.faultSilent

/-- The LU evaluates the fault output (R52). -/
def State.evalFault (s : State) : State := { s with lu := { s.lu with fault := s.faultCondition } }

/-- The zone's release line (R95). -/
def State.releaseLine (s : State) (z : Nat) : Option Nat := (s.zone z).bind (·.fire.line)

/-- The LU drives the zone's release output (R51). -/
def State.driveRelease (s : State) (z : Nat) (on : Bool) : State :=
  match s.releaseLine z with
  | some q => { s with lu := { s.lu with release := s.lu.release.set q on } }
  | none => s

/-! ## Fire -/

/-- The four shutdown states (R80). -/
def FireState.isShutdown : FireState → Bool
  | .confirmed => true
  | .countdown => true
  | .held => true
  | .released => true
  | .normal => false
  | .preAlarm => false
  | .isolated => false

/-- The states that count toward FIRE_ACTIVE (R119). -/
def FireState.isCounting : FireState → Bool
  | .countdown => true
  | .held => true
  | .released => true
  | .confirmed => false
  | .normal => false
  | .preAlarm => false
  | .isolated => false

/-- The states in which a zone holds orders (R151). -/
def FireState.holdsOrders : FireState → Bool
  | .confirmed => true
  | .countdown => true
  | .held => true
  | .released => true
  | .isolated => true
  | .normal => false
  | .preAlarm => false

/-- NORMAL or ISOLATED: the states in which a zone's fire-relevant tables may change (R27, R44, R48). -/
def FireState.isQuiet : FireState → Bool
  | .normal => true
  | .isolated => true
  | .preAlarm => false
  | .confirmed => false
  | .countdown => false
  | .held => false
  | .released => false

/-- FIRE_ACTIVE holds while any zone is COUNTDOWN, HELD or RELEASED (R119). -/
def State.fireActiveNow (s : State) : Bool := s.fz.fire.any (fun f => f.state.isCounting)

/-! ## Locks -/

/-- The condition under which FIRE_HOLD stands on the lock at an address (R54). -/
def State.fireHoldDue (s : State) (a : Nat) : Bool :=
  match s.hatchOfLock a with
  | some _ => s.fz.fireActive
  | none =>
    match s.node a with
    | some e => (s.fire e.zone).state.isCounting
    | none => false

/-- A claim of HANDOVER or MAINTENANCE is held (R56). -/
def Claims.wantOpen (c : Claims) : Bool := c.handover0 || c.handover1 || c.maintenance.isSome

/-- Some claim is held (R27, R197). -/
def Claims.any (c : Claims) : Bool := c.wantOpen || c.fireHold

/-- UNLOCKED exactly while a HANDOVER or MAINTENANCE claim and no FIRE_HOLD is held (R56). -/
def Claims.command (c : Claims) : LockState := if c.wantOpen && !c.fireHold then .unlocked else .locked

/-! ## Climate -/

/-- The status judged from fRH and the band (R67). -/
def judgeStatus (g : ClimateGroup) (fRH : Int) : Status :=
  if fRH < g.lo then .low else if fRH ≤ g.hi then .inBand else .high

/-- The demand of an AUTO zone from the demand held and fRH (R70). -/
def autoDemand (g : ClimateGroup) (held : Demand) (fRH : Int) : Demand :=
  match held with
  | .none =>
    if (g.target : Int) + g.deadBand < fRH then .dry else if fRH < (g.target : Int) - g.deadBand then .wet else .none
  | .dry => if fRH ≤ g.target then .none else .dry
  | .wet => if (g.target : Int) ≤ fRH then .none else .wet

/-- The demand decided at a taken sample: NONE in MANUAL (R71), by hysteresis in AUTO (R70). -/
def decideDemand (g : ClimateGroup) (held : Demand) (fRH : Int) : Demand :=
  match g.mode with
  | .auto => autoDemand g held fRH
  | .manual => .none

/-- The excess of a zone at an epoch: how far fRH lies outside the band by its status, never below 0 (R72). -/
def excessOf (g : Option ClimateGroup) (c : Climate) : Nat :=
  match g, c.fRH with
  | some g, some f =>
    match c.status with
    | .high => (f - g.hi).toNat
    | .low => ((g.lo : Int) - f).toNat
    | .inBand => 0
    | .stale => 0
    | .unset => 0
  | _, _ => 0

/-! ## Parties -/

/-- The minute of the day of a clock value (R148). -/
def minuteOfDay (clock : Nat) : Nat := (clock / 60) % 1440

/-- The courier's window contains a minute of the day (R148). -/
def CourierFields.windowContains (c : CourierFields) (m : Nat) : Bool :=
  if c.windowStart ≤ c.windowStop then c.windowStart ≤ m && m ≤ c.windowStop
  else c.windowStart ≤ m || m ≤ c.windowStop

/-- A cartridge carrying HOLD, QUARANTINE or INSPECT (R126). -/
def Cartridge.flagged (c : Cartridge) : Bool := c.hold || c.quarantine || c.inspect

/-- Whether CS is blank: six zero bytes, or a check that fails (R190, R191). -/
def Cs.blank (c : Cs) : Bool := !c.checkOk || c.code.all (· = 0#8)

end Sys2Proof.Machine
end

