-- ==== Sys2Proof/Machine/Operands.lean ====
section
/-! DEFINITION. What the bytes of payloads, directive bodies and table entries say: the kinds and codes of
chapter 11 (R206, R207) and the range checks each table makes of an entry (R24, R42, R47, R48, R143, R147). -/

namespace Sys2Proof.Machine

/-! ## Kinds of telegrams (R206) -/

def kindStatus : Byte := 0x01#8
def kindSample : Byte := 0x02#8
def kindDetAlarm : Byte := 0x10#8
def kindDetRestore : Byte := 0x11#8
def kindDetTrouble : Byte := 0x12#8
def kindSlotEvent : Byte := 0x20#8
def kindDoorState : Byte := 0x30#8
def kindBadge : Byte := 0x40#8
def kindScan : Byte := 0x41#8
def kindClose : Byte := 0x42#8
def kindConfirm : Byte := 0x43#8
def kindCancel : Byte := 0x44#8
def kindRelease : Byte := 0x80#8
def kindAlert : Byte := 0x81#8
def kindLockSet : Byte := 0x90#8
def kindActSet : Byte := 0x91#8
def kindPick : Byte := 0xA0#8
def kindPickWithdraw : Byte := 0xA1#8
def kindResult : Byte := 0xA2#8

/-- The owner of a ring item, chosen by the class recorded at acceptance and the kind (R13); the kinds of one owner
are told apart because each is a command of its own. -/
def dispatches (cls : NodeClass) (kind : Byte) : Bool :=
  if kind = kindStatus then true
  else match cls with
    | .probe => kind = kindSample
    | .detector => kind = kindDetAlarm || kind = kindDetRestore || kind = kindDetTrouble
    | .slotStrip => kind = kindSlotEvent
    | .lock => kind = kindDoorState
    | .hatchReader =>
      kind = kindBadge || kind = kindScan || kind = kindClose || kind = kindConfirm || kind = kindCancel
    | .courierTerminal =>
      kind = kindBadge || kind = kindScan || kind = kindClose || kind = kindConfirm || kind = kindCancel
    | .suppression => false
    | .dehumidifier => false
    | .humidifier => false
    | .pickDisplay => false

/-- The classes of the two terminals of a hatch (9.2). -/
def isTerminal : NodeClass → Bool
  | .hatchReader => true
  | .courierTerminal => true
  | .probe => false
  | .detector => false
  | .slotStrip => false
  | .lock => false
  | .suppression => false
  | .dehumidifier => false
  | .humidifier => false
  | .pickDisplay => false

/-! ## Payloads (R206) -/

/-- A SAMPLE of exactly 4 bytes: humidity and temperature, each signed (R61). -/
def parseSample : List Byte → Option (Int × Int)
  | [a, b, c, d] => some (signed16 (le2 a b), signed16 (le2 c d))
  | _ => none

/-- What a slot strip reports: a slot left empty, or a label entered (R127). -/
inductive SlotReport where
  | emptied (offset : Nat)
  | occupied (offset : Nat) (label : Label)
  deriving DecidableEq, Repr

/-- A SLOT_EVENT: length 2 for EMPTY, 10 for OCCUPIED, an offset of at most 63 (R127). -/
def parseSlotEvent : List Byte → Option SlotReport
  | off :: pres :: label =>
    if off.toNat ≤ 63 then
      if pres = 0x01#8 ∧ label = [] then some (.emptied off.toNat)
      else if pres = 0x02#8 ∧ label.length = 8 then some (.occupied off.toNat label)
      else none
    else none
  | _ => none

/-- A DOOR_STATE of one byte, OPEN or CLOSED (R58, R206). -/
def parseDoor : List Byte → Option DoorState
  | [b] => if b = 0x01#8 then some .opened else if b = 0x02#8 then some .closed else none
  | _ => none

/-- What a courier's badge says (9.2). -/
structure CourierBadge where
  id        : Nat
  direction : Direction
  caseTag   : Option Nat
  caseTemp  : Option Int
  deriving DecidableEq, Repr

/-- A BADGE of the COURIER side: 7 bytes; a case tag of 0 and a case temperature of -32768 are absent (R206). -/
def parseCourierBadge : List Byte → Option CourierBadge
  | [p0, p1, d, t0, t1, c0, c1] =>
    let tag := le2 t0 t1
    let temp := signed16 (le2 c0 c1)
    let badge (dir : Direction) : CourierBadge :=
      { id := le2 p0 p1, direction := dir, caseTag := (if tag = 0 then none else some tag),
        caseTemp := (if temp = -32768 then none else some temp) }
    if d = 0x01#8 then some (badge .out) else if d = 0x02#8 then some (badge .inward) else none
  | _ => none

/-- A BADGE of the READER side: 2 bytes (R206). -/
def parseReaderBadge : List Byte → Option Nat
  | [p0, p1] => some (le2 p0 p1)
  | _ => none

/-- A SCAN: 8 bytes of label (R206). -/
def parseLabel (l : List Byte) : Option Label := if l.length = 8 then some l else none

/-! ## Codes of entries (R207) -/

/-- The node class of a code (R207). -/
def classOf : Nat → Option NodeClass
  | 1 => some .probe
  | 2 => some .detector
  | 3 => some .slotStrip
  | 4 => some .lock
  | 5 => some .suppression
  | 6 => some .dehumidifier
  | 7 => some .humidifier
  | 8 => some .hatchReader
  | 9 => some .courierTerminal
  | 10 => some .pickDisplay
  | _ => none

/-- The table of an id, where it is one of the six loadable tables (R192, R207). -/
def tableOf (b : Byte) : Option TableId :=
  match b.toNat with
  | 1 => some .node
  | 2 => some .zone
  | 3 => some .site
  | 4 => some .line
  | 5 => some .catalogue
  | 6 => some .party
  | _ => none

/-- The bytes of one entry of a table (R207). -/
def entrySize : TableId → Nat
  | .node => 9
  | .zone => 30
  | .site => 39
  | .line => 5
  | .catalogue => 24
  | .party => 14

/-- The last index of a table (R193). -/
def lastIndex : TableId → Nat
  | .node => 125
  | .zone => 15
  | .site => 0
  | .line => 15
  | .catalogue => 4095
  | .party => 47

/-- The byte at an offset of an entry. -/
def byteAt (e : List Byte) (i : Nat) : Nat := (e.getD i 0#8).toNat

/-- The two-byte field at an offset of an entry. -/
def wordAt (e : List Byte) (i : Nat) : Nat := leNat ((e.drop i).take 2)

/-- The four-byte field at an offset of an entry. -/
def longAt (e : List Byte) (i : Nat) : Nat := leNat ((e.drop i).take 4)

/-- A field of 0 or 1. -/
def bitOf : Nat → Option Bool
  | 0 => some false
  | 1 => some true
  | _ => none

/-- The value where a range holds. -/
def within (lo hi v : Nat) : Option Nat := if lo ≤ v ∧ v ≤ hi then some v else none

/-- A segment's bytes cut into its entries. -/
def cutEntries (size : Nat) : Nat → List Byte → List (List Byte)
  | 0, _ => []
  | n + 1, bs => bs.take size :: cutEntries size n (bs.drop size)

/-- What an entry asks of its place: nothing that passes the range check, the removal of what is there, or a new
entry. -/
inductive Asked (α : Type) where
  | outOfRange
  | remove
  | place (a : α)
  deriving DecidableEq, Repr

/-- An entry from its checks: out of range where one failed. -/
def Asked.ofOption {α : Type} : Option α → Asked α
  | some a => .place a
  | none => .outOfRange

/-! ## Node entries (R24) -/

/-- The static fields of a node entry with fresh live fields (R24, R26): presence, class, zone, interval, relay
flag, slot base, hatch. -/
def parseNode (e : List Byte) : Asked NodeEntry :=
  match byteAt e 0 with
  | 0 => .remove
  | 1 => .ofOption (do
      let cls ← classOf (byteAt e 1)
      let zone ← within 0 15 (byteAt e 2)
      let iv := wordAt e 3
      let interval ← if iv = 0 then some 0 else within 10 3600 iv
      let relay ← bitOf (byteAt e 5)
      let sb := wordAt e 6
      let slotBase ← if sb = 0xFFFF then some none
        else if sb % 64 = 0 ∧ sb ≤ 960 then some (some sb) else none
      let hb := byteAt e 8
      let hatch ← if hb = 0xFF then some none else (hatchOf hb).map some
      if (slotBase.isSome = (cls = .slotStrip : Bool)) ∧ (hatch.isSome = isTerminal cls) then
        some { cls := cls, zone := zone, interval := interval, relay := relay, slotBase := slotBase, hatch := hatch,
               sup := .ok, timer := intervalTimer interval, lastSeq := none, lineErrors := 0, condition := none,
               rangeMark := false }
      else none)
  | _ => .outOfRange

/-! ## Zone entries (R42) -/

/-- A group whose bytes are all 0xFF is omitted (R207). -/
def omitted (bs : List Byte) : Bool := bs.all (· = 0xFF#8)

/-- A node address field, 0 for none (R207). -/
def nodeField (v : Nat) : Option (Option Nat) := if v = 0 then some none else (within 1 126 v).map some

/-- A field of at most `hi`, 0xFF for none (R207). -/
def lineField (hi v : Nat) : Option (Option Nat) := if v = 0xFF then some none else (within 0 hi v).map some

/-- The climate group (R42, R207). -/
def parseClimateGroup (g : List Byte) : Option ClimateGroup := do
  let target ← within 0 1000 (wordAt g 0)
  let deadBand ← within 5 200 (wordAt g 2)
  let lo ← within 0 1000 (wordAt g 4)
  let hi ← within 0 1000 (wordAt g 6)
  let k ← within 1 16 (byteAt g 8)
  let stale ← within 30 3600 (wordAt g 9)
  let dehum ← nodeField (byteAt g 11)
  let hum ← nodeField (byteAt g 12)
  let minRun ← within 0 3600 (wordAt g 13)
  let minRest ← within 0 3600 (wordAt g 15)
  let m ← bitOf (byteAt g 17)
  if lo + deadBand ≤ target ∧ target + deadBand ≤ hi then
    some { target := target, deadBand := deadBand, lo := lo, hi := hi, k := k, stale := stale, dehum := dehum,
           hum := hum, minRun := minRun, minRest := minRest, mode := (if m then .manual else .auto) }
  else none

/-- The fire group (R42, R207). -/
def parseFireGroup (g : List Byte) : Option FireGroup := do
  let line ← lineField 7 (byteAt g 0)
  let delay ← within 10 120 (byteAt g 1)
  let p ← bitOf (byteAt g 2)
  let checkLine ← lineField 15 (byteAt g 3)
  let display ← nodeField (byteAt g 4)
  some { line := line, delay := delay, policy := (if p then .restart else .resume), checkLine := checkLine,
         display := display }

/-- The staging group (R42, R207). -/
def parseStagingGroup (g : List Byte) : Option StagingGroup := do
  let amin ← within 0 1440 (wordAt g 0)
  some { amin := amin, rate := byteAt g 2 }

/-- The handover group (R42, R207). -/
def parseHandoverGroup (g : List Byte) : Option HandoverGroup := do
  let hatch ← hatchOf (byteAt g 0)
  let lock ← within 1 126 (byteAt g 1)
  let staging ← within 0 15 (byteAt g 2)
  some { hatch := hatch, lock := lock, staging := staging }

/-- A group the kind has must be given, one it has not must be omitted (R42). -/
def groupOf {α : Type} (wanted : Bool) (bs : List Byte) (parse : List Byte → Option α) : Option (Option α) :=
  if wanted then (if omitted bs then none else (parse bs).map some)
  else (if omitted bs then some none else none)

/-- A zone entry of a kind (R42). -/
def parseZoneOf (kind : ZoneKind) (e : List Byte) : Option ZoneEntry := do
  let climate ← groupOf (kind ≠ .plant) ((e.drop 1).take 18) parseClimateGroup
  let fire ← (groupOf true ((e.drop 19).take 5) parseFireGroup).bind id
  let staging ← groupOf (kind = .staging) ((e.drop 24).take 3) parseStagingGroup
  let handover ← groupOf (kind = .handover) ((e.drop 27).take 3) parseHandoverGroup
  if kind = .handover ∧ fire.line.isSome then none
  else some { kind := kind, climate := climate, fire := fire, staging := staging, handover := handover }

/-- A zone entry; the kind NONE removes it (R42). -/
def parseZone (e : List Byte) : Asked ZoneEntry :=
  match byteAt e 0 with
  | 0 => .remove
  | 1 => .ofOption (parseZoneOf .storage e)
  | 2 => .ofOption (parseZoneOf .staging e)
  | 3 => .ofOption (parseZoneOf .handover e)
  | 4 => .ofOption (parseZoneOf .plant e)
  | _ => .outOfRange

/-! ## SITE, line, catalogue and party entries -/

/-- The identification string: to the first 0x00 or the sixteenth byte, each from space to tilde, and only 0x00
after a 0x00 (R47, R207). -/
def parseIdent (bs : List Byte) : Option (List Byte) :=
  let str := bs.takeWhile (· ≠ 0#8)
  if str ≠ [] ∧ str.all (fun b => 0x20 ≤ b.toNat && b.toNat ≤ 0x7E) ∧ (bs.drop str.length).all (· = 0#8) then some str
  else none

/-- The SITE entry (R47, R207). -/
def parseSite (e : List Byte) : Asked SiteEntry :=
  match byteAt e 0 with
  | 0 => .remove
  | 1 => .ofOption (do
      let threshold ← within 0 1000000 (longAt e 1)
      let classes := ((e.drop 5).take 18).map (·.toNat)
      let ident ← parseIdent ((e.drop 23).take 16)
      if classes.all (· ≤ 3) then some { threshold := threshold, classes := classes, ident := ident } else none)
  | _ => .outOfRange

/-- The function of a line's code (R207). -/
def functionOf : Nat → Option LineFunction
  | 0 => some .unused
  | 1 => some .abort
  | 2 => some .manualRelease
  | 3 => some .dischargeOk
  | 4 => some .panelAlarm
  | _ => none

/-- A line entry, its settled level the raw level at the load and its settle timer stopped (R48, R207). -/
def parseLine (raw : Level) (e : List Byte) : Asked LineEntry :=
  match byteAt e 0 with
  | 0 => .remove
  | 1 => .ofOption (do
      let function ← functionOf (byteAt e 1)
      let zone ← within 0 15 (byteAt e 2)
      let high ← bitOf (byteAt e 3)
      let settle ← within 1 255 (byteAt e 4)
      some { function := function, zone := zone, active := (if high then .high else .low), settle := settle,
             settled := raw, timer := none })
  | _ => .outOfRange

/-- What a catalogue entry gives (R143); the checks that need the tables come at completion. -/
structure CatEntry where
  label    : Label
  homeZone : Nat
  homeSlot : Nat
  state    : CartState
  hold     : Bool
  exposure : Nat
  courier  : Option Nat
  dueBack  : Option Nat
  deriving DecidableEq, Repr

/-- The state of a catalogue entry's code (R207); 0 is EMPTY. -/
def loadStateOf : Nat → Option CartState
  | 1 => some .shelved
  | 2 => some .away
  | 3 => some .missing
  | _ => none

/-- The courier of a catalogue entry: 0 for none (R207). A number that is no party id names no party (R143). -/
def courierField (v : Nat) : Option Nat := if v = 0 then none else some v

/-- A catalogue entry: label, home, state, HOLD, exposure, courier, due-back; EMPTY removes (R143, R207). -/
def parseCatEntry (e : List Byte) : Asked CatEntry :=
  match byteAt e 11 with
  | 0 => .remove
  | n => .ofOption (do
      let state ← loadStateOf n
      let homeZone ← within 0 15 (byteAt e 8)
      let homeSlot ← within 0 1023 (wordAt e 9)
      let hold ← bitOf (byteAt e 12)
      let exposure ← within 0 1000000 (longAt e 13)
      let courier := courierField (wordAt e 17)
      let given ← bitOf (byteAt e 19)
      let dueBack := if given then some (longAt e 20) else none
      if labelOk (e.take 8) ∧ (courier.isSome = (state = .away : Bool)) ∧ (dueBack.isSome → state = .away) then
        some { label := e.take 8, homeZone := homeZone, homeSlot := homeSlot, state := state, hold := hold,
               exposure := exposure, courier := courier, dueBack := dueBack }
      else none)

/-- The courier fields of a party entry, the held count 0 (R147, R207). -/
def parseCourierFields (e : List Byte) : Option CourierFields := do
  let windowStart ← within 0 1439 (wordAt e 4)
  let windowStop ← within 0 1439 (wordAt e 6)
  let outbound ← bitOf (byteAt e 8)
  let inbound ← bitOf (byteAt e 9)
  let loan ← within 1 365 (wordAt e 10)
  let limit ← within 0 500 (wordAt e 12)
  some { windowStart := windowStart, windowStop := windowStop, outbound := outbound, inbound := inbound, loan := loan,
         limit := limit, held := 0 }

/-- A party entry: an OPERATOR gives none of the courier fields (R147, R207). -/
def parseParty (e : List Byte) : Asked Party :=
  match byteAt e 0 with
  | 0 => .remove
  | 1 => .ofOption (do
      let id ← within 1 65534 (wordAt e 1)
      let suspended ← bitOf (byteAt e 3)
      let c ← parseCourierFields e
      some { id := id, active := !suspended, courier := some c })
  | 2 => .ofOption (do
      let id ← within 1 65534 (wordAt e 1)
      let suspended ← bitOf (byteAt e 3)
      if omitted ((e.drop 4).take 10) then some { id := id, active := !suspended, courier := none } else none)
  | _ => .outOfRange

/-- The sum of bytes modulo 65536 (R193). -/
def segmentSum (bs : List Byte) : Nat := (bs.foldl (fun n b => n + b.toNat) 0) % 65536

end Sys2Proof.Machine
end

