-- ==== Sys2Proof/Machine/PassDown.lean ====
section
/-! DEFINITION. The pass-down filter (R39), which TI applies when it takes a PASS_DOWN. -/

namespace Sys2Proof.Machine

/-- The zone is NORMAL or ISOLATED (R27, R44, R48). -/
def State.quietZone (s : State) (z : Nat) : Bool := (s.fire z).state.isQuiet

/-- The zone and role under which a plant node is named, where its class is the role's (R39, R43). -/
def State.plantZoneOf (s : State) (a : Nat) (c : NodeClass) : Option (Nat × Role × ClimateGroup) :=
  s.zt.zones.findSome? (fun p =>
    match p.2.climate with
    | some g =>
      if c = .dehumidifier ∧ g.dehum = some a then some (p.1, .dry, g)
      else if c = .humidifier ∧ g.hum = some a then some (p.1, .wet, g)
      else none
    | none => none)

/-- The actuator of a zone's role is SHUT. -/
def State.isShut (s : State) (z : Nat) (r : Role) : Bool := meets (s.actuator z r) (fun a => a.state = .shut)

/-- What the pass-down filter refuses (R39). -/
def State.judgePassDown (s : State) (dest kind : Nat) (payload : List Byte) : Option Result :=
  if !addressInRange dest ∨ kind < 192 ∨ 40 < payload.length then some .range
  else match s.node dest with
    | none => some .notFound
    | some e =>
      match e.cls with
      | .lock | .suppression => some .owned
      | .dehumidifier | .humidifier =>
        match s.plantZoneOf dest e.cls with
        | none => none
        | some (z, r, g) =>
          match g.mode with
          | .auto => some .owned
          | .manual => if s.isShut z r then some .badState else none
      | .detector => if s.quietZone e.zone then none else some .badState
      | .probe | .slotStrip | .hatchReader | .courierTerminal | .pickDisplay => none

/-- The code of PASS_DOWN (R207). -/
def codePassDown : Byte := 0x40#8

/-- What the filter refuses of a directive body: of a PASS_DOWN, destination, kind and payload are judged; a body in no form
is left to its BAD_FORM, and another directive has no filter (R39, R192). -/
def State.passDownFilter (s : State) (body : List Byte) : Option Result :=
  match body with
  | c :: dest :: kind :: p :: payload =>
    if c = codePassDown ∧ payload.length = p.toNat then s.judgePassDown dest.toNat kind.toNat payload else none
  | _ => none

end Sys2Proof.Machine
end

