-- ==== Sys2Proof/Machine/Trunk.lean ====
section
/-! DEFINITION. What every block uses of the Trunk Interface: posting a notice (R203, R204) and making a reply
(R188), with the codes of the trunk (R207). -/

namespace Sys2Proof.Machine

/-! ## Codes (R207) -/

/-- The number of a notice kind (R207). -/
def noticeKind : NoticeBody → Nat
  | .startup .. => 0
  | .fireState .. => 1
  | .releaseFault .. => 2
  | .releaseUnconfirmed .. => 3
  | .nodeState .. => 4
  | .unknownSource .. => 4
  | .lockFault .. => 5
  | .doorHeld .. => 6
  | .actuatorFailed .. => 7
  | .ingressCongested => 8
  | .quarantine .. => 9
  | .handoverResult .. => 10
  | .climateState .. => 11
  | .cartridgeState .. => 12
  | .foreign .. => 13
  | .misfiled .. => 14
  | .orderClosed .. => 15
  | .pickUndelivered .. => 16
  | .terminalIgnored .. => 17
  | .relayed .. => 18

/-- The default class of each notice kind (R203). -/
def defaultClass (kind : Nat) : Nat :=
  if kind ≤ 3 then 3 else if kind ≤ 10 then 2 else if kind ≤ 16 then 1 else 0

/-- The class a notice of a kind is posted in: STARTUP's is fixed, the SITE entry sets the others, and the default
stands while it is absent (R47, R203). -/
def State.noticeClass (s : State) (kind : Nat) : Nat :=
  if kind = 0 then 3
  else match s.zt.site with
    | some e => e.classes.getD (kind - 1) (defaultClass kind)
    | none => defaultClass kind

/-! ## Posting a notice (R203, R204) -/

/-- A notice placed after every notice of its class, classes from 3 down to 0 (R204). -/
def insertNotice : List Notice → Notice → List Notice
  | [], n => [n]
  | x :: l, n => if x.cls < n.cls then n :: x :: l else x :: insertNotice l n

/-- The notice queue and the count of notices lost after a posting. When all 32 places are taken, the lowest class
present is that of the last notice, which is also the newest of its class (R204). -/
def queueNotice (q : List Notice) (lost : Nat) (n : Notice) : List Notice × Nat :=
  if q.length < 32 then (insertNotice q n, lost)
  else match q.getLast? with
    | some low => if low.cls < n.cls then (insertNotice q.dropLast n, min (lost + 1) 255) else (q, min (lost + 1) 255)
    | none => (q, min (lost + 1) 255)

/-- Post a notice: it gets its class and its tag, and the tag is taken whether or not it finds a place (R203). -/
def State.post (s : State) (b : NoticeBody) : State :=
  let n : Notice := { cls := s.noticeClass (noticeKind b), tag := s.ti.noticeTag, body := b }
  let q := queueNotice s.ti.notices s.ti.noticesLost n
  { s with ti := { s.ti with notices := q.1, noticesLost := q.2, noticeTag := s.ti.noticeTag + 1#16 } }

/-! ## Replies (R187, R188) -/

/-- The directive code a reply to a directive body carries (R207); an empty body has none (log 17). -/
def bodyCode (body : List Byte) : Byte := body.headD Config.emptyBodyCode

/-- Make a reply: it joins the reply list in the order made (R188). -/
def State.reply (s : State) (d : Directive) (r : Result) (b : ReplyBody) : State :=
  { s with ti := { s.ti with
      replies := s.ti.replies ++ [{ tag := d.tag, code := bodyCode d.body, result := r, body := b, restarts := false }] } }

/-- What TI reads as it takes a directive: the credential, CS and the pass-down filter (R39, R189, R190). A directive that
waited through a loss of the carrier is judged by the credential read here, so one behind a CHECK_CODE that has matched
since the loss is decided and not refused UNVERIFIED (DESIGN CHOICE, log 52). -/
def State.reads (s : State) (d : Directive) : Taking :=
  { verified := s.ti.credential = .verified, cs := s.cs, filter := s.passDownFilter d.body }

/-- With no directive in hand, a free place in the reply list and no restart accepted, TI takes the head of the ingress,
which leaves it, and reads what its decision depends on (R187 to R190, R200). The row of the directive's code decides it
(log 3). -/
def State.takeNext (s : State) : State :=
  if s.ti.inHand.isNone ∧ s.ti.replies.length < 8 ∧ s.ti.restartPending = false then
    match s.ti.ingress with
    | [] => s
    | d :: rest => { s with ti := { s.ti with ingress := rest, inHand := some (.deciding d (s.reads d)) } }
  else s

/-- A directive is answered, and the next is taken within the same event (R187). -/
def State.conclude (s : State) (d : Directive) (r : Result) (b : ReplyBody) : State := (s.reply d r b).takeNext

/-- The directive in hand is let go. -/
def State.dropHand (s : State) : State := { s with ti := { s.ti with inHand := none } }

/-- The outcome of a PASS_DOWN's telegram: the directive held in hand is answered OK with it, and the next is taken
(R40, R187). R187 says "within the same event" and not where in it: where the telegram is evicted by a request of a higher
class, the next is taken at the eviction, before the event's later changes (DESIGN CHOICE, log 51). -/
def State.passDownOutcome (s : State) (o : TxOutcome) : State :=
  match s.ti.inHand with
  | some (.passDown d) => s.dropHand.conclude d .ok (.outcome o)
  | some (.deciding ..) => s
  | some (.catalogueLoad ..) => s
  | some (.catalogueClear _) => s
  | none => s

end Sys2Proof.Machine
end

