-- ==== Sys2Proof/Machine/TxQueue.lean ====
section
/-! DEFINITION. The transmit queue: a request to queue a telegram, the full-queue rule and the DROPPED outcome
(R16, R20, R21). -/

namespace Sys2Proof.Machine

/-- The number of a queued telegram's class, 0 to 3 (1.4). -/
def TxClass.rank : TxClass → Nat
  | .display => 0
  | .actuator => 1
  | .lock => 2
  | .fire => 3

/-- What an originator asks the LIF to queue (R16). -/
structure TxRequest where
  cls     : TxClass
  dest    : Nat
  kind    : Byte
  payload : List Byte
  origin  : Origin
  deriving DecidableEq, Repr

/-- Place a telegram as a new item: READY, no retries, no sequence, after every item present (R16). -/
def State.placeTx (s : State) (r : TxRequest) : State :=
  { s with lif := { s.lif with
      txq := s.lif.txq ++ [{ cls := r.cls, dest := r.dest, kind := r.kind, payload := r.payload, origin := r.origin,
                             seq := none, busyRetries := 0, emptyRetries := 0, state := .ready,
                             arrival := s.lif.txArrivals }]
      txArrivals := s.lif.txArrivals + 1 } }

/-- A candidate for removal by a telegram of class `c`: an item of a lower class that is not ON_LOOP (R21). -/
def evictable (c : TxClass) (it : TxItem) : Bool := it.cls.rank < c.rank && it.state ≠ .onLoop

/-- The item a full queue gives up for a telegram of class `c`: the newest candidate of the lowest class among the
candidates (R21). -/
def evictee (q : List TxItem) (c : TxClass) : Option TxItem :=
  let cands := q.filter (evictable c)
  let newest (r : Nat) : Option TxItem := (cands.filter (fun it => it.cls.rank = r)).getLast?
  (newest 0).orElse fun _ => (newest 1).orElse fun _ => newest 2

/-- The queue without the item of an arrival number. -/
def State.removeTx (s : State) (arrival : Nat) : State :=
  { s with lif := { s.lif with txq := s.lif.txq.filter (fun it => it.arrival ≠ arrival) } }

/-- DROPPED for a LOCK_SET: the send state becomes PENDING (R57); a removed record takes no outcome (R53). -/
def State.lockDropped (s : State) (a : Nat) (live : Bool) : State :=
  match live, s.lock a with
  | true, some l => s.setLock a { l with send := .pending }
  | _, _ => s

/-- DROPPED for an ACT_SET, by what it was queued for: back to OFF (R84), back to RUNNING with the run timer
ELAPSED (R85), off owed (R90), nothing for a stale ON (R90). -/
def State.actDropped (s : State) (z : Nat) (r : Role) (p : ActPurpose) (live : Bool) : State :=
  match live, s.actuator z r with
  | true, some a =>
    match p with
    | .startOn => s.setActuator z r { a with state := .off }
    | .stopOff => s.setActuator z r { a with state := .running, run := .elapsed }
    | .off => s.setActuator z r { a with owed := true }
    | .staleOn => s
  | _, _ => s

/-- DROPPED for a PICK: a RELEASED order waits again, and in any open order the pick is NOT_SENT (R155). -/
def State.pickDropped (s : State) (n : Nat) (detached : Bool) : State :=
  match detached, s.order n with
  | false, some o =>
    s.setOrder { o with state := (if o.state = .released then .waiting else o.state), pick := .notSent }
  | _, _ => s

/-- Hand the outcome DROPPED to the originator (R20). A PASS_DOWN held in hand is answered with it, and TI takes the next
directive, at this place within the event and before what else follows in it (DESIGN CHOICE, log 51). -/
def State.dropped (s : State) : Origin → State
  | .release z live => if live then s.setFire z { s.fire z with pendingRelease := true } else s
  | .alert => { s with fz := { s.fz with pendingAlert := true } }
  | .lockSet a live => s.lockDropped a live
  | .actSet z r p live => s.actDropped z r p live
  | .pick n detached => s.pickDropped n detached
  | .pickWithdraw => s
  | .result _ => s
  | .passDown => s.passDownOutcome .dropped

/-- Ask the LIF to queue a telegram: placed where there is room, in the place of a lower-class item where there is
one, and otherwise refused DROPPED (R16, R21). -/
def State.requestTx (s : State) (r : TxRequest) : State :=
  if s.lif.txq.length < 24 then s.placeTx r
  else match evictee s.lif.txq r.cls with
    | some v => ((s.removeTx v.arrival).dropped v.origin).placeTx r
    | none => s.dropped r.origin

/-! ## Marking queued items whose record has moved on -/

/-- Every queued item's originator changed by `f`. -/
def State.mapOrigins (s : State) (f : Origin → Origin) : State :=
  { s with lif := { s.lif with txq := s.lif.txq.map (fun it => { it with origin := f it.origin }) } }

/-- The RELEASE telegrams of a zone belong to no entry into RELEASED any more (R110). -/
def State.killRelease (s : State) (z : Nat) : State :=
  s.mapOrigins fun
    | .release y live => .release y (live && y ≠ z)
    | o => o

/-- The LOCK_SETs of a removed record take no outcome (R53). -/
def State.killLockSet (s : State) (a : Nat) : State :=
  s.mapOrigins fun
    | .lockSet b live => .lockSet b (live && b ≠ a)
    | o => o

/-- The ACT_SETs of a removed record take no outcome (R81). -/
def State.killActSet (s : State) (z : Nat) (r : Role) : State :=
  s.mapOrigins fun
    | .actSet y q p live => .actSet y q p (live && !(y = z && q = r))
    | o => o

/-- The record has left STARTING or STOPPING before its telegram's outcome: its ON becomes a stale ON and its OFF
an off telegram (R87, R89, R90, log 11). -/
def State.orphanActSet (s : State) (z : Nat) (r : Role) : State :=
  s.mapOrigins fun
    | .actSet y q p live =>
      if y = z && q = r then
        .actSet y q (match p with
          | .startOn => .staleOn
          | .stopOff => .off
          | .off => .off
          | .staleOn => .staleOn) live
      else .actSet y q p live
    | o => o

/-- The PICK of an order that has left the list is detached (R155). -/
def State.detachPick (s : State) (n : Nat) : State :=
  s.mapOrigins fun
    | .pick m d => .pick m (d || m = n)
    | o => o

end Sys2Proof.Machine
end

