-- ==== Sys2Proof/Machine/Orders.lean ====
section
/-! DEFINITION. The Order List and the Party Table: releases and picks, fire and epochs, departures, held counts
(R149, R151, R154 to R159). -/

namespace Sys2Proof.Machine

/-! ## Parties -/

/-- A courier's held count changed by one handing (R149). -/
def State.changeHeld (s : State) (id : Nat) (f : Nat → Nat) : State :=
  match s.partyKey id with
  | none => s
  | some k =>
    match Table.get s.pt.parties k with
    | none => s
    | some p =>
      match p.courier with
      | none => s
      | some c =>
        { s with pt := { s.pt with
            parties := Table.put s.pt.parties k { p with courier := some { c with held := f c.held } } } }

/-- A rise of 1 (R149). -/
def State.raiseHeld (s : State) (id : Nat) : State := s.changeHeld id (· + 1)

/-- A fall of 1 (R149). -/
def State.lowerHeld (s : State) (id : Nat) : State := s.changeHeld id (· - 1)

/-- A fall of 1 for the courier a record names, where it names one. -/
def State.lowerHeldOf (s : State) : Option Nat → State
  | some id => s.lowerHeld id
  | none => s

/-! ## Picks -/

/-- A PICK: the cartridge's label, its home slot and the order number (R154, R206). -/
def pickRequest (display : Nat) (c : Cartridge) (n : Nat) : TxRequest :=
  { cls := .display, dest := display, kind := kindPick,
    payload := c.label ++ leBytes 2 c.homeSlot ++ leBytes 2 n, origin := .pick n false }

/-- A PICK_WITHDRAW, to the node that received the PICK (R155, R206). -/
def withdrawRequest (display n : Nat) : TxRequest :=
  { cls := .display, dest := display, kind := kindPickWithdraw, payload := leBytes 2 n, origin := .pickWithdraw }

/-- The zone of an order: the home zone of its cartridge (R151). -/
def State.orderZone (s : State) (o : Order) : Option Nat := (s.cartridge o.index).map (·.homeZone)

/-- The zone of an order holds orders (R151). -/
def State.orderHeld (s : State) (o : Order) : Bool :=
  match s.orderZone o with
  | some z => (s.fire z).state.holdsOrders
  | none => false

/-- The display of an order's zone, where it names an entry of class PICK_DISPLAY (R154). -/
def State.displayOf (s : State) (o : Order) : Option Nat :=
  match ((s.orderZone o).bind s.zone).bind (·.fire.display) with
  | some d => if s.hasClass d .pickDisplay then some d else none
  | none => none

/-- OL releases an order, acting on its pick field (R154). -/
def State.releaseOrder (s : State) (n : Nat) : State :=
  match s.order n with
  | none => s
  | some o =>
    match o.pick with
    | .inFlight => s.setOrder { o with state := .released }
    | .shown d => s.setOrder { o with state := .released, pick := .shown d }
    | .notSent | .undelivered =>
      match s.displayOf o, s.cartridge o.index with
      | some d, some c =>
        (s.setOrder { o with state := .released, pick := .inFlight }).requestTx (pickRequest d c n)
      | _, _ => s.setOrder { o with state := .released, pick := .notSent }

/-- The pick of an order that leaves RELEASED, or the list, is settled: a shown pick is withdrawn, a PICK in flight
waits for its outcome (R155). -/
def State.settlePick (s : State) (n : Nat) : State :=
  match s.order n with
  | none => s
  | some o =>
    match o.pick with
    | .shown d => (s.setOrder { o with pick := .notSent }).requestTx (withdrawRequest d n)
    | .undelivered => s.setOrder { o with pick := .notSent }
    | .inFlight => s
    | .notSent => s

/-- An order takes a state other than RELEASED, its pick settled when it leaves RELEASED (R155, R157). -/
def State.moveOrder (s : State) (n : Nat) (st : OrderState) : State :=
  match s.order n with
  | none => s
  | some o =>
    let s' := s.setOrder { o with state := st }
    if o.state = .released then s'.settlePick n else s'

/-- The order's cartridge is back in its slot: released, or WAITING where the zone holds orders (R157). -/
def State.orderBackInSlot (s : State) (n : Nat) : State :=
  match s.order n with
  | none => s
  | some o => if s.orderHeld o then s.setOrder { o with state := .waiting } else s.releaseOrder n

/-- An order leaves the list: its pick settled, its PICK detached, ORDER_CLOSED raised (R159). -/
def State.closeOrder (s : State) (n : Nat) (why : OrderReason) : State :=
  match s.order n with
  | none => s
  | some o =>
    let s1 := (s.settlePick n).detachPick n
    let s2 : State := { s1 with ol := { s1.ol with orders := s1.ol.orders.filter (fun p => p.number ≠ n) } }
    s2.post (.orderClosed n (((s.cartridge o.index).map (·.label)).getD []) o.index o.courier o.state why)

/-- An order a cartridge names, where it names one, leaves the list. -/
def State.closeOrderOf (s : State) (n : Option Nat) (why : OrderReason) : State :=
  match n with
  | some n => s.closeOrder n why
  | none => s

/-! ## Fire and the epoch (R156) -/

/-- Act on the orders that meet a test, in acceptance order. -/
def State.forOrders (s : State) (p : State → Order → Bool) (f : State → Nat → State) : State :=
  ((s.ol.orders.filter (p s)).map (·.number)).foldl f s

/-- The zone enters a state that holds orders: its RELEASED orders wait, shown picks withdrawn (R156). -/
def State.holdOrders (s : State) (z : Nat) : State :=
  s.forOrders (fun s o => o.state = .released && s.orderZone o = some z) (fun s n => s.moveOrder n .waiting)

/-- The zone lets orders go: its WAITING orders are released (R156). -/
def State.freeOrders (s : State) (z : Nat) : State :=
  s.forOrders (fun s o => o.state = .waiting && s.orderZone o = some z) State.releaseOrder

/-- OL takes a change of a zone's fire state (R156). -/
def State.ordersFire (s : State) (z : Nat) (before after : FireState) : State :=
  if after.holdsOrders && !before.holdsOrders then s.holdOrders z
  else if after = .normal && before.holdsOrders then s.freeOrders z
  else s

/-- OL takes an epoch: every WAITING order whose zone lets orders go is released (R156). -/
def State.ordersEpoch (s : State) : State :=
  s.forOrders (fun s o => o.state = .waiting && !s.orderHeld o) State.releaseOrder

/-! ## Outcomes of a PICK (R155) -/

/-- DELIVERED for a PICK of a node (R155). -/
def State.pickDelivered (s : State) (n : Nat) (detached : Bool) (node : Nat) : State :=
  if detached then s.requestTx (withdrawRequest node n)
  else match s.order n with
    | none => s.requestTx (withdrawRequest node n)
    | some o =>
      if o.state = .released then s.setOrder { o with pick := .shown node }
      else (s.setOrder { o with pick := .notSent }).requestTx (withdrawRequest node n)

/-- REFUSED_BY_NODE or NO_ANSWER for a PICK (R155). -/
def State.pickFailed (s : State) (n : Nat) (detached : Bool) (node : Nat) (out : TxOutcome) : State :=
  match detached, s.order n with
  | false, some o =>
    if o.state = .released then
      (s.setOrder { o with pick := .undelivered }).post
        (.pickUndelivered n (((s.cartridge o.index).map (·.label)).getD []) node out)
    else s.setOrder { o with pick := .notSent }
  | _, _ => s

/-- The outcome of a PICK (R155). -/
def State.pickOutcome (s : State) (n : Nat) (detached : Bool) (node : Nat) (o : TxOutcome) : State :=
  match o with
  | .delivered => s.pickDelivered n detached node
  | .refusedByNode => s.pickFailed n detached node .refusedByNode
  | .noAnswer => s.pickFailed n detached node .noAnswer
  | .dropped => s.pickDropped n detached

/-- The number an accepted order takes: after the last number, 65535 on to 1, numbers of open orders passed over
(R151). At most 64 numbers are held, so 65 tries find a free one. -/
def nextNumber (held : List Nat) : Nat → Nat → Nat
  | 0, n => n
  | fuel + 1, n =>
    let m := if n ≥ 65535 then 1 else n + 1
    if held.contains m then nextNumber held fuel m else m

end Sys2Proof.Machine
end

