-- ==== Sys2Proof/Machine/Catalogue.lean ====
section
/-! DEFINITION. The Catalogue: slot events (R127 to R133), epoch work (R134 to R138), quarantine (R139), and the
changes CAT makes for OL and the engines (R123). -/

namespace Sys2Proof.Machine

/-- A CARTRIDGE_STATE notice of a record after its change; the courier is given apart, for RETURNED_IRREGULAR
carries the one of before (R125, R133). -/
def State.postCartridge (s : State) (i : Nat) (before : CartState) (c : Cartridge) (courier : Option Nat)
    (why : CartReason) : State :=
  s.post (.cartridgeState i c.label before c.state c.hold c.quarantine c.inspect (s.currentZone c) c.order courier why)

/-- A record taken out of its order by a flag or a cancellation: ORDERED becomes SHELVED, PICKED a loose pick
(R126, R158). -/
def Cartridge.withoutOrder (c : Cartridge) : Cartridge :=
  { c with state := (if c.state = .ordered then .shelved else c.state), order := none }

/-! ## Lists of the engines -/

/-- An engine's record without one index of its list: an outbound CONFIRM whose manifest empties goes back to
SCANNING (R183). -/
def Engine.without (e : Engine) (i : Nat) : Engine :=
  let l := setErase e.list i
  if e.state = .confirm ∧ e.direction = some .out ∧ l = [] ∧ e.list ≠ [] then
    { e with list := l, state := .scanning, first := none, confirmTimer := none }
  else { e with list := l }

/-- CAT hands the engine of a record's hatch that the cartridge has left its list (R183). -/
def State.dropFromList (s : State) (h : Option Hatch) (i : Nat) : State :=
  match h with
  | some h => s.setEngine h ((s.engine h).without i)
  | none => s

/-! ## Slot events -/

/-- An EMPTY at a slot, judged by the slot's home cartridge (R128). -/
def State.slotEmptied (s : State) (z slot : Nat) : State :=
  match s.indexOfSlot z slot with
  | none => s
  | some i =>
    match s.cartridge i with
    | none => s
    | some c =>
      match c.state with
      | .shelved =>
        let c' := { c with state := .missing }
        (s.setCartridge i c').postCartridge i .shelved c' c'.courier .removed
      | .ordered =>
        let c' := { c with state := .picked }
        let s1 := s.setCartridge i c'
        let s2 := match c.order with
          | some n => s1.moveOrder n .picked
          | none => s1
        s2.postCartridge i .ordered c' c'.courier .picked
      | .picked | .manifested | .away | .inbound | .staging | .ready | .missing => s

/-- A record back on its shelf as SHELVED, with the fields SHELVED holds (R123, R130, R131, R133). -/
def Cartridge.shelve (c : Cartridge) : Cartridge :=
  { c with state := .shelved, order := none, courier := none, dueBack := none, overdue := false, hatch := none,
           staging := none, acclim := none }

/-- An OCCUPIED at its home slot that makes the cartridge SHELVED and nothing else (R130). -/
def State.reshelve (s : State) (i : Nat) (c : Cartridge) : State :=
  (s.setCartridge i c.shelve).postCartridge i c.state c.shelve none .reshelved

/-- An OCCUPIED at its home slot of a cartridge with an order: ORDERED again, and its order back in its slot (R130,
R132). -/
def State.reorder (s : State) (i : Nat) (c : Cartridge) (n : Nat) : State :=
  let c' := { c with state := .ordered, hatch := none }
  ((s.setCartridge i c').postCartridge i c.state c' c'.courier .reshelved).orderBackInSlot n

/-- An OCCUPIED at its home slot of a STAGING cartridge (R131). -/
def State.shelveEarly (s : State) (i : Nat) (c : Cartridge) : State :=
  let c' := { c.shelve with inspect := true }
  (s.setCartridge i c').postCartridge i .staging c' none .shelvedEarly

/-- An OCCUPIED at its home slot of an AWAY or INBOUND cartridge (R133). -/
def State.shelveIrregular (s : State) (i : Nat) (c : Cartridge) : State :=
  let s1 := if c.state = .inbound then s.dropFromList c.hatch i else s
  let s2 := s1.lowerHeldOf c.courier
  let c' := { c.shelve with inspect := true }
  (s2.setCartridge i c').postCartridge i c.state c' c.courier .returnedIrregular

/-- An OCCUPIED at the record's home slot, judged by its state (R130 to R133). -/
def State.backHome (s : State) (i : Nat) (c : Cartridge) : State :=
  match c.state with
  | .shelved | .ordered => s
  | .picked =>
    match c.order with
    | some n => s.reorder i c n
    | none => s.reshelve i c
  | .ready | .missing => s.reshelve i c
  | .staging => s.shelveEarly i c
  | .manifested =>
    match c.order with
    | some n => (s.dropFromList c.hatch i).reorder i c n
    | none => s.dropFromList c.hatch i
  | .away | .inbound => s.shelveIrregular i c

/-- An OCCUPIED at a slot carrying a label (R129). -/
def State.slotOccupied (s : State) (strip z slot : Nat) (l : Label) : State :=
  match s.indexOfLabel l with
  | none => s.post (.foreign strip z slot l)
  | some i =>
    match s.cartridge i with
    | none => s
    | some c =>
      if c.homeZone = z ∧ c.homeSlot = slot then s.backHome i c
      else s.post (.misfiled strip z slot l i c.homeZone c.homeSlot c.state)

/-! ## Epoch work -/

/-- The figures of a zone in an epoch. -/
def Epoch.at (e : Epoch) (z : Nat) : EpochZone := List.getD e z { excess := 0, status := .unset }

/-- The states whose cartridges share the climate and the fire of their current zone (R135, R139). -/
def CartState.inZone : CartState → Bool
  | .shelved => true
  | .ordered => true
  | .picked => true
  | .staging => true
  | .ready => true
  | .manifested => false
  | .away => false
  | .inbound => false
  | .missing => false

/-- Step 1, exposure: the e of the current zone is added, saturating at 1,000,000 (R135). -/
def State.exposed (s : State) (e : Epoch) (c : Cartridge) : Cartridge :=
  match c.state.inZone, s.currentZone c with
  | true, some z => { c with exposure := min (c.exposure + (Epoch.at e z).excess) 1000000 }
  | _, _ => c

/-- The inspect threshold, 0 while the SITE entry is absent (R47, R136). -/
def State.threshold (s : State) : Nat := (s.zt.site.map (·.threshold)).getD 0

/-- Step 2, INSPECT: set at the threshold, and an order that names the record is removed FLAGGED (R136, R126).
INSPECT_DUE is posted after CAT's own change, with the state and without the order number that it leaves, and before the
removal is handed to OL (DEDUCED from R125, R126 and R136, log 48). -/
def State.inspectStep (s : State) (i : Nat) : State :=
  match s.cartridge i with
  | none => s
  | some c =>
    if 0 < s.threshold ∧ !c.inspect ∧ c.state ≠ .manifested ∧ s.threshold ≤ c.exposure then
      let c' := if c.order.isSome then { c.withoutOrder with inspect := true } else { c with inspect := true }
      ((s.setCartridge i c').postCartridge i c.state c' c'.courier .inspectDue).closeOrderOf c.order .flagged
    else s

/-- Step 3, acclimatization: counted down while the staging zone is IN_BAND and NORMAL (R137). -/
def State.acclimStep (s : State) (e : Epoch) (i : Nat) : State :=
  match s.cartridge i with
  | none => s
  | some c =>
    match c.state, c.staging with
    | .staging, some z =>
      if (Epoch.at e z).status = .inBand ∧ (s.fire z).state = .normal then
        let left := c.acclim.getD 0 - 1
        if left = 0 then
          let c' := { c with state := .ready, acclim := none }
          (s.setCartridge i c').postCartridge i .staging c' c'.courier .ready
        else s.setCartridge i { c with acclim := some left }
      else s
    | _, _ => s

/-- Step 4, overdue: the mark is set once for a loan past its due-back (R138). -/
def State.overdueStep (s : State) (i : Nat) : State :=
  match s.cartridge i with
  | none => s
  | some c =>
    match c.dueBack with
    | some due =>
      if (c.state = .away ∨ c.state = .inbound) ∧ !c.overdue ∧ s.ti.clockSet ∧ due ≤ s.ti.clock then
        let c' := { c with overdue := true }
        (s.setCartridge i c').postCartridge i c.state c' c'.courier .overdue
      else s
    | none => s

/-- The four steps of one record (R134). -/
def State.epochRecord (e : Epoch) (s : State) (i : Nat) : State :=
  match s.cartridge i with
  | none => s
  | some c => (((s.setCartridge i (s.exposed e c)).inspectStep i).acclimStep e i).overdueStep i

/-- CAT works an epoch over every record in ascending index order (R134). -/
def State.epochWork (s : State) (e : Epoch) : State :=
  (s.cat.cartridges.map (·.1)).foldl (State.epochRecord e) s

/-! ## Quarantine -/

/-- One record of a zone that enters RELEASED: marked, with its order removed; the counts of marked records and
removed orders rise (R139). -/
def State.quarantineRecord (z : Nat) (acc : State × Nat × Nat) (i : Nat) : State × Nat × Nat :=
  match acc.1.cartridge i with
  | none => acc
  | some c =>
    if c.state.inZone && !c.quarantine && acc.1.currentZone c = some z then
      match c.order with
      | some n =>
        (((acc.1.setCartridge i { c.withoutOrder with quarantine := true }).closeOrder n .quarantine), acc.2.1 + 1,
          acc.2.2 + 1)
      | none => (acc.1.setCartridge i { c with quarantine := true }, acc.2.1 + 1, acc.2.2)
    else acc

/-- CAT marks the cartridges of a released zone and raises one QUARANTINE notice (R139). -/
def State.quarantineZone (s : State) (z : Nat) : State :=
  let acc := (s.cat.cartridges.map (·.1)).foldl (State.quarantineRecord z) (s, 0, 0)
  acc.1.post (.quarantine z acc.2.1 acc.2.2)

end Sys2Proof.Machine
end

