-- ==== Sys2Proof/Machine/Plant.lean ====
section
/-! DEFINITION. The Plant Controller: actuator records under demand, fire and outcomes (R80 to R92). -/

namespace Sys2Proof.Machine

/-- The node class of a unit (R82). -/
def roleClass : Role → NodeClass
  | .dry => .dehumidifier
  | .wet => .humidifier

/-- The demand of a unit's role is present (R80). -/
def Demand.isPresent (d : Demand) : Role → Bool
  | .dry => d = .dry
  | .wet => d = .wet

/-- The unit's demand as it stands in CU's climate record (R80). -/
def State.demandPresent (s : State) (z : Nat) (r : Role) : Bool := (s.climate z).demand.isPresent r

/-- PC decides from demand: the mode is AUTO (R92) and the fire state is not a shutdown state (R83). -/
def State.plantDecides (s : State) (z : Nat) : Bool :=
  match s.climateGroup z with
  | some g => g.mode = .auto && !(s.fire z).state.isShutdown
  | none => false

/-- The unit's node holds an entry of its class: it is not detached (R82). -/
def State.attached (s : State) (a : Actuator) : Bool := s.hasClass a.node (roleClass a.role)

/-- An ACT_SET of a record (R82, R206). -/
def actRequest (z : Nat) (a : Actuator) (on : Bool) (p : ActPurpose) : TxRequest :=
  { cls := .actuator, dest := a.node, kind := kindActSet, payload := [if on then 0x01#8 else 0x00#8],
    origin := .actSet z a.role p true }

/-- A record becomes FAILED: timers stopped, off owed cleared, one notice; a FAILED record stays as it is (R88). -/
def State.failActuator (s : State) (z : Nat) (r : Role) (before : ActState) (on : Bool) (why : ActReason) : State :=
  match s.actuator z r with
  | none => s
  | some a =>
    if a.state = .failed then s
    else
      ((s.setActuator z r { a with state := .failed, run := .stopped, rest := none, owed := false }).orphanActSet z r).post
        (.actuatorFailed z r a.node (some before) (some on) why)

/-- PC queues an off telegram for a record as it stands, or finds its unit detached (R82, R87). -/
def State.queueOff (s : State) (z : Nat) (r : Role) (before : ActState) : State :=
  match s.actuator z r with
  | none => s
  | some a =>
    if s.attached a then s.requestTx (actRequest z a false .off) else s.failActuator z r before false .detached

/-- A record in OFF is started: off owed cleared, an ON queued, STARTING with both timers stopped (R84). -/
def State.startUnit (s : State) (z : Nat) (r : Role) : State :=
  match s.actuator z r with
  | none => s
  | some a =>
    if s.attached a then
      (s.setActuator z r { a with state := .starting, run := .stopped, rest := none, owed := false }).requestTx
        (actRequest z a true .startOn)
    else s.failActuator z r .off true .detached

/-- A record in RUNNING is stopped: an OFF queued, STOPPING (R85). -/
def State.stopUnit (s : State) (z : Nat) (r : Role) : State :=
  match s.actuator z r with
  | none => s
  | some a =>
    if s.attached a then
      (s.setActuator z r { a with state := .stopping }).requestTx (actRequest z a false .stopOff)
    else s.failActuator z r .running false .detached

/-- The run timer has run out: ELAPSED, and the unit is stopped when its demand is gone (R85, R92). -/
def State.runElapsed (s : State) (z : Nat) (r : Role) : State :=
  match s.actuator z r with
  | none => s
  | some a =>
    let s' := s.setActuator z r { a with run := .elapsed }
    if a.state = .running && s.plantDecides z && !s.demandPresent z r then s'.stopUnit z r else s'

/-- The rest is over: OFF, and the unit is started when its demand is present in AUTO (R86, R92). -/
def State.restOver (s : State) (z : Nat) (r : Role) : State :=
  match s.actuator z r with
  | none => s
  | some a =>
    let s' := s.setActuator z r { a with state := .off, rest := none }
    if s.plantDecides z && s.demandPresent z r then s'.startUnit z r else s'

/-- A record enters REST: the rest timer starts with the minimum rest, and a minimum rest of 0 ends at once
(R85, R86, R91). -/
def State.enterRest (s : State) (z : Nat) (r : Role) : State :=
  match s.actuator z r with
  | none => s
  | some a =>
    let minRest := ((s.climateGroup z).map (·.minRest)).getD 0
    let s' := s.setActuator z r { a with state := .rest, run := .stopped, rest := some (secs minRest) }
    if minRest = 0 then s'.restOver z r else s'

/-- A demand report on one record: started, stopped, or a debt repaid (R84, R85, R90). -/
def State.reportRecord (s : State) (z : Nat) (r : Role) : State :=
  match s.actuator z r with
  | none => s
  | some a =>
    if s.plantDecides z && a.state = .off && s.demandPresent z r then s.startUnit z r
    else if s.plantDecides z && a.state = .running && a.run = .elapsed && !s.demandPresent z r then s.stopUnit z r
    else if a.owed && (a.state = .off || a.state = .rest || a.state = .shut) then
      (s.setActuator z r { a with owed := false }).queueOff z r a.state
    else s

/-- A demand report: the DRY record first and then the WET record (R83). -/
def State.demandReport (s : State) (z : Nat) : State := (s.reportRecord z .dry).reportRecord z .wet

/-! ## Fire shutdown and return -/

/-- A record goes to SHUT with both timers stopped, its queued ON or OFF no longer moving it (R89, R90). -/
def State.toShut (s : State) (z : Nat) (r : Role) (a : Actuator) : State :=
  (s.setActuator z r { a with state := .shut, run := .stopped, rest := none }).orphanActSet z r

/-- The shutdown of one record, by its state (R89). -/
def State.shutdownRecord (s : State) (z : Nat) (r : Role) : State :=
  match s.actuator z r with
  | none => s
  | some a =>
    match a.state with
    | .off => s.toShut z r a
    | .stopping => s.toShut z r a
    | .rest => s.toShut z r a
    | .starting =>
      if s.attached a then (s.toShut z r a).queueOff z r .starting else s.failActuator z r .starting false .detached
    | .running =>
      if s.attached a then (s.toShut z r a).queueOff z r .running else s.failActuator z r .running false .detached
    | .failed => s
    | .shut => s

/-- The shutdown of a zone's plant, DRY first and then WET (R89). -/
def State.shutdownPlant (s : State) (z : Nat) : State := (s.shutdownRecord z .dry).shutdownRecord z .wet

/-- A record in SHUT returns to REST (R91). -/
def State.returnRecord (s : State) (z : Nat) (r : Role) : State :=
  match s.actuator z r with
  | none => s
  | some a => if a.state = .shut then s.enterRest z r else s

/-- The zone is NORMAL again: its records in SHUT rest in full (R91), DRY first, an order that R91 leaves open (DESIGN
CHOICE, log 45). -/
def State.returnPlant (s : State) (z : Nat) : State := (s.returnRecord z .dry).returnRecord z .wet

/-! ## Outcomes and recovery -/

/-- DELIVERED for an ACT_SET, by what it was queued for (R84, R85, R90). -/
def State.actDelivered (s : State) (z : Nat) (r : Role) (p : ActPurpose) : State :=
  match s.actuator z r with
  | none => s
  | some a =>
    match p with
    | .startOn =>
      let minRun := ((s.climateGroup z).map (·.minRun)).getD 0
      let s' := s.setActuator z r { a with state := .running, run := .running (secs minRun) }
      if minRun = 0 then s'.runElapsed z r else s'
    | .stopOff => s.enterRest z r
    | .off => s.setActuator z r { a with owed := false }
    | .staleOn => s.queueOff z r a.state

/-- NO_ANSWER or REFUSED_BY_NODE for an ACT_SET: FAILED, but for a stale ON (R88, R90). -/
def State.actFailed (s : State) (z : Nat) (r : Role) (p : ActPurpose) (why : ActReason) : State :=
  match s.actuator z r with
  | none => s
  | some a =>
    match p with
    | .startOn => s.failActuator z r a.state true why
    | .stopOff => s.failActuator z r a.state false why
    | .off => s.failActuator z r a.state false why
    | .staleOn => s

/-- The outcome of an ACT_SET at the end of its transmission (R87); a removed record takes none (R81). -/
def State.actOutcome (s : State) (z : Nat) (r : Role) (p : ActPurpose) (live : Bool) (o : TxOutcome) : State :=
  if live then
    match o with
    | .delivered => s.actDelivered z r p
    | .refusedByNode => s.actFailed z r p .refused
    | .noAnswer => s.actFailed z r p .noAnswer
    | .dropped => s.actDropped z r p true
  else s

/-- A FAILED unit whose node was heard from, its entry of the record's class: SHUT with an OFF queued in a shutdown
state, OFF otherwise, and the notice CLEARED (R88). -/
def State.recoverRecord (s : State) (z : Nat) (r : Role) : State :=
  match s.actuator z r with
  | none => s
  | some a =>
    if a.state = .failed && s.attached a then
      let s' :=
        if (s.fire z).state.isShutdown then (s.toShut z r a).queueOff z r .shut
        else s.setActuator z r { a with state := .off, run := .stopped, rest := none }
      s'.post (.actuatorFailed z r a.node none none .cleared)
    else s

/-- A node was heard from: every record that names it recovers (R33, R88). No two records do (R43, R81). -/
def State.plantHeard (s : State) (address : Nat) : State :=
  (s.pc.actuators.filter (fun p => p.2.node = address)).foldl (fun s p => s.recoverRecord p.2.zone p.2.role) s

/-! ## Creation and removal by zone loads -/

/-- A record is created OFF, or SHUT with an OFF queued where the zone is in a shutdown state (R80). -/
def State.createActuator (s : State) (z : Nat) (r : Role) (node : Nat) : State :=
  let a : Actuator := { zone := z, role := r, node := node, state := .off, run := .stopped, rest := none, owed := false }
  if (s.fire z).state.isShutdown then (s.setActuator z r { a with state := .shut }).queueOff z r .shut
  else s.setActuator z r a

/-- A record is removed: a unit STARTING or RUNNING is sent OFF, and every telegram of the record loses its outcome
(R81). -/
def State.removeActuator (s : State) (z : Nat) (r : Role) : State :=
  match s.actuator z r with
  | none => s
  | some a =>
    let s1 := if a.state = .starting || a.state = .running then s.queueOff z r a.state else s
    ({ s1 with pc := { s1.pc with actuators := Table.del s1.pc.actuators (actKey z r) } }).killActSet z r

/-- The unit a zone names for a role, before and after a load: kept, removed, created (R80, R81). -/
def State.reloadActuator (s : State) (z : Nat) (r : Role) (node : Option Nat) : State :=
  match s.actuator z r, node with
  | some a, some n => if a.node = n then s else (s.removeActuator z r).createActuator z r n
  | some _, none => s.removeActuator z r
  | none, some n => s.createActuator z r n
  | none, none => s

/-- The records of a zone's units after a load (R80, R81). That DRY is handled whole, its removal and its creation, before
WET is the model's choice, which no rule makes (DESIGN CHOICE, log 45). -/
def State.reloadPlant (s : State) (z : Nat) (g : Option ClimateGroup) : State :=
  (s.reloadActuator z .dry (g.bind (·.dehum))).reloadActuator z .wet (g.bind (·.hum))

end Sys2Proof.Machine
end

