-- ==== Sys2Proof/Machine/Climate.lean ====
section
/-! DEFINITION. The Climate Unit: a taken sample (R62 to R67, R70, R71), the fall into STALE (R68), the change of a
zone's climate group (R60), the minute epoch (R72 to R75) and the acclimatization requirement (R76, R77). -/

namespace Sys2Proof.Machine

/-! ## Samples -/

/-- A reading taken into a range (R62). -/
def clampInt (lo hi v : Int) : Int := if v < lo then lo else if hi < v then hi else v

/-- A humidity reading clamped (R62). -/
def clampRH (v : Int) : Int := clampInt 0 1000 v

/-- A temperature reading clamped (R62, R76). -/
def clampT (v : Int) : Int := clampInt (-400) 850 v

/-- One step of a filter: the difference times k over 16, truncated toward zero, is added (R65). -/
def filterStep (k : Nat) (acc reading : Int) : Int := acc + Int.tdiv ((16 * reading - acc) * k) 16

/-- The reported value of an accumulator, rounded toward minus infinity (R66). -/
def reported (acc : Int) : Int := Int.fdiv (acc + 8) 16

/-- A status at which a sample seeds the filters (R64). -/
def Status.seeds : Status → Bool
  | .unset => true
  | .stale => true
  | .inBand => false
  | .high => false
  | .low => false

/-- The accumulator after a clamped reading: seeded (R64) or stepped (R65). -/
def nextAcc (st : Status) (k : Nat) (acc reading : Int) : Int :=
  if st.seeds then 16 * reading else filterStep k acc reading

/-- CU raises CLIMATE_STATE for a change of status; the demand is that of the record at the posting (R69). -/
def State.postClimate (s : State) (z : Nat) (before : Status) : State :=
  let c := s.climate z
  if c.status = before then s else s.post (.climateState z before c.status c.fRH c.fT c.demand)

/-- The climate record after the filters, the judgement and the restart of the stale timer, its demand not yet
decided (R63: steps 2 to 4). -/
def Climate.sampled (c : Climate) (g : ClimateGroup) (rh t : Int) : Climate :=
  let acc := nextAcc c.status g.k c.acc (clampRH rh)
  let accT := nextAcc c.status g.k c.accT (clampT t)
  { acc := acc, accT := accT, fRH := some (reported acc), fT := some (reported accT),
    status := judgeStatus g (reported acc), stale := some (secs g.stale), demand := c.demand, fromNone := c.fromNone }

/-- The probe's entry with the RANGE mark where a reading was clamped (R62). -/
def NodeEntry.ranged (e : NodeEntry) (rh t : Int) : NodeEntry :=
  if clampRH rh = rh ∧ clampT t = t then e else { e with rangeMark := true }

/-- The demand a sample decides from: NONE at the first sample after a load from MANUAL to AUTO (R71). -/
def Climate.heldDemand (c : Climate) : Demand := if c.fromNone then .none else c.demand

/-- CU sets a zone's demand (R63: step 5). -/
def State.setDemand (s : State) (z : Nat) (d : Demand) : State :=
  s.setClimate z { s.climate z with demand := d, fromNone := false }

/-- A taken sample, worked through in the order of R63. -/
def State.takeSample (s : State) (z : Nat) (g : ClimateGroup) (rh t : Int) : State :=
  let before := (s.climate z).status
  let s1 := (s.setClimate z ((s.climate z).sampled g rh t)).postClimate z before
  let f := ((s1.climate z).fRH).getD 0
  (s1.setDemand z (decideDemand g (s1.climate z).heldDemand f)).demandReport z

/-! ## Stale zones and zone loads -/

/-- The stale timer has expired: STALE, the demand NONE, one notice, and PC told (R68, R69). -/
def State.becomeStale (s : State) (z : Nat) : State :=
  let c := s.climate z
  ((s.setClimate z { c with status := .stale, stale := none, demand := .none }).postClimate z c.status).demandReport z

/-- The record of a zone that loses its climate group is emptied: a notice where its status was not UNSET, and the
change of demand handed to PC (R60). -/
def State.emptyClimate (s : State) (z : Nat) : State :=
  let c := s.climate z
  let s1 := (s.setClimate z Climate.empty).postClimate z c.status
  if c.demand = .none then s1 else s1.demandReport z

/-! ## Epochs -/

/-- The figures of every zone at an expiry (R72). -/
def State.formEpoch (s : State) : Epoch :=
  zoneNumbers.map fun z => { excess := excessOf (s.climateGroup z) (s.climate z), status := (s.climate z).status }

/-- A new epoch merged into one that waits: sums saturating at 1000, the status of the new (R74). -/
def mergeEpoch (old new : Epoch) : Epoch :=
  List.zipWith (fun o n => { excess := min (o.excess + n.excess) 1000, status := n.status }) old new

/-- The pending list after an expiry while CAT is busy (R74). -/
def holdEpoch : List Epoch → Epoch → List Epoch
  | [], e => [e]
  | [a], e => [a, e]
  | a :: b :: _, e => [a, mergeEpoch b e]

/-- The expiry of the epoch timer: CAT takes the epoch or it is held, and OL takes it (R72, R73). -/
def State.epochExpiry (s : State) : State :=
  let e := s.formEpoch
  let s1 : State := { s with cu := { s.cu with epochTimer := secs 60 } }
  let s2 : State :=
    if s1.catBusy then { s1 with cu := { s1.cu with epochs := holdEpoch s1.cu.epochs e } } else s1.epochWork e
  s2.ordersEpoch

/-- CAT's busy period has ended: the pending epochs are worked, oldest first (R75). -/
def State.workPendingEpochs (s : State) : State :=
  s.cu.epochs.foldl State.epochWork { s with cu := { s.cu with epochs := [] } }

/-! ## Acclimatization -/

/-- The minutes of a difference in tenths of a degree: times the rate, over 10, rounded toward plus infinity (R77). -/
def acclimMinutes (d rate : Nat) : Nat := (d * rate + 9) / 10

/-- The acclimatization requirement of a staging zone for a case temperature (R76, R77). -/
def State.acclimRequirement (s : State) (z : Nat) (tcase : Option Int) : Nat :=
  let c := s.climate z
  match c.status with
  | .unset => 2880
  | .stale => 2880
  | .inBand | .high | .low =>
    match (s.zone z).bind (·.staging) with
    | none => 2880
    | some g =>
      let d := match tcase with
        | some t => (clampT t - c.fT.getD 0).natAbs
        | none => 0
      min (g.amin + acclimMinutes d g.rate) 2880

end Sys2Proof.Machine
end

