-- ==== Sys2Proof/Machine/Locks.lean ====
section
/-! DEFINITION. The Lock Arbiter: claims, the commanded state and its telegrams (R53 to R57). -/

namespace Sys2Proof.Machine

/-- The payload of a LOCK_SET (R206). -/
def lockSetPayload : LockState → List Byte
  | .locked => [0x01#8]
  | .unlocked => [0x02#8]

/-- The LOCK_SET a record asks for (R56). -/
def lockSetRequest (a : Nat) (st : LockState) : TxRequest :=
  { cls := .lock, dest := a, kind := kindLockSet, payload := lockSetPayload st, origin := .lockSet a true }

/-- A LOCK_SET carrying the commanded state is queued; the sent state takes that value and the send state becomes
IN_FLIGHT, or PENDING where the queue refuses it (R56, R57). -/
def State.sendLock (s : State) (a : Nat) : State :=
  match s.lock a with
  | none => s
  | some l => (s.setLock a { l with sent := l.commanded, send := .inFlight }).requestTx (lockSetRequest a l.commanded)

/-- LA decides the commanded state again; a change is sent at once where the send state is IDLE (R56). -/
def State.decideLock (s : State) (a : Nat) : State :=
  match s.lock a with
  | none => s
  | some l =>
    if l.claims.command = l.commanded then s
    else
      let s' := s.setLock a { l with commanded := l.claims.command }
      if l.send = .idle then s'.sendLock a else s'

/-- The claims of a record change, and the decision follows (R54 to R56). -/
def State.setClaims (s : State) (a : Nat) (f : Claims → Claims) : State :=
  match s.lock a with
  | none => s
  | some l => (s.setLock a { l with claims := f l.claims }).decideLock a

/-- FIRE_HOLD placed or removed on one record as its condition stands (R54). -/
def State.settleFireHold (s : State) (a : Nat) : State :=
  match s.lock a with
  | none => s
  | some l =>
    if l.claims.fireHold = s.fireHoldDue a then s
    else s.setClaims a (fun c => { c with fireHold := s.fireHoldDue a })

/-- FIRE_HOLD settled on several records, in the order given (R54: ascending node address). -/
def State.settleFireHolds (s : State) (as : List Nat) : State := as.foldl State.settleFireHold s

/-- The locks whose node entry names a zone, ascending (R54). -/
def State.locksOfZone (s : State) (z : Nat) : List Nat :=
  (s.la.locks.map (·.1)).filter (fun a =>
    match s.node a with
    | some e => e.zone = z
    | none => false)

/-- The hatch locks, ascending (R54, R119). -/
def State.hatchLocks (s : State) : List Nat := (s.la.locks.map (·.1)).filter (fun a => (s.hatchOfLock a).isSome)

/-- The claim HANDOVER(h) in a set of claims. -/
def Claims.setHandover (c : Claims) (h : Hatch) (on : Bool) : Claims :=
  match h with
  | .h0 => { c with handover0 := on }
  | .h1 => { c with handover1 := on }

/-- An engine removes HANDOVER(h) from the lock its hatch zone names; a claim not held changes nothing (R54). -/
def State.dropHandoverClaim (s : State) (h : Hatch) : State :=
  match s.hatchZone h with
  | some (_, g) => s.setClaims g.lock (fun c => c.setHandover h false)
  | none => s

/-- A record is created: no claims, LOCKED, a LOCK_SET carrying LOCKED queued at once (R53). -/
def State.createLock (s : State) (a : Nat) : State :=
  let l : Lock :=
    { claims := { handover0 := false, handover1 := false, maintenance := none, fireHold := false },
      commanded := .locked, sent := .locked, send := .idle, fault := false, door := .unknown, doorTimer := none,
      heldMark := false }
  ((s.setLock a l).sendLock a).settleFireHold a

/-- A record is removed: its LOCK_SETs take no outcome and a PENDING send goes with it (R53). -/
def State.removeLock (s : State) (a : Nat) : State :=
  ({ s with la := { s.la with locks := Table.del s.la.locks a } }).killLockSet a

/-- A lock node was heard from: a standing LOCK_FAULT with send state IDLE is sent again (R57). -/
def State.lockHeard (s : State) (a : Nat) : State :=
  match s.lock a with
  | some l => if l.fault && l.send = .idle then s.sendLock a else s
  | none => s

/-- The LOCK_FAULT notice of a record (R57). -/
def lockFaultNotice (a : Nat) (l : Lock) (r : LockFaultReason) : NoticeBody :=
  .lockFault a l.commanded l.claims r

/-- DELIVERED: LOCK_FAULT is cleared with its notice, the send state becomes IDLE, and a newer commanded state is
sent at once (R57). -/
def State.lockDelivered (s : State) (a : Nat) : State :=
  match s.lock a with
  | none => s
  | some l =>
    let s1 := s.setLock a { l with fault := false, send := .idle }
    let s2 := if l.fault then s1.post (lockFaultNotice a l .cleared) else s1
    if l.commanded = l.sent then s2 else s2.sendLock a

/-- REFUSED_BY_NODE or NO_ANSWER: LOCK_FAULT is set, with a notice where it was clear; nothing is queued (R57). -/
def State.lockFailed (s : State) (a : Nat) (r : LockFaultReason) : State :=
  match s.lock a with
  | none => s
  | some l =>
    let s1 := s.setLock a { l with fault := true, send := .idle }
    if l.fault then s1 else s1.post (lockFaultNotice a l r)

/-- The outcome of a LOCK_SET at the end of its transmission (R57); DROPPED is `State.lockDropped`. -/
def State.lockOutcome (s : State) (a : Nat) (live : Bool) (o : TxOutcome) : State :=
  if live then
    match o with
    | .delivered => s.lockDelivered a
    | .refusedByNode => s.lockFailed a .refused
    | .noAnswer => s.lockFailed a .noAnswer
    | .dropped => s.lockDropped a true
  else s

end Sys2Proof.Machine
end

