-- ==== Sys2Proof/Machine/Ring.lean ====
section
/-! DEFINITION. The head of the ingress ring as its owners take it (R12 to R14). -/

namespace Sys2Proof.Machine

/-- The head leaves the ring; the congestion mark clears where 8 items or fewer remain (R12, R14). -/
def State.popRing (s : State) : State :=
  let rest := s.lif.ring.tail
  { s with lif := { s.lif with ring := rest, congested := s.lif.congested && decide (8 < rest.length) } }

/-- The item is dispatched to an owner: its class and kind are in the table and its source has an entry (R13). -/
def State.isDispatched (s : State) (it : RingItem) : Bool := dispatches it.cls it.kind && (s.node it.src).isSome

/-- The owner of a kind takes the head of the ring; a head of another kind, or one no owner takes, is not this
command's (R13, R14, log 1, 3). -/
def State.takeHead (s : State) (kind : Byte) (act : RingItem → State → State) : State :=
  match s.lif.ring with
  | [] => s
  | it :: _ => if it.kind = kind ∧ s.isDispatched it then act it s.popRing else s

end Sys2Proof.Machine
end

