-- ==== Sys2Proof/Machine/Handover.lean ====
section
/-! DEFINITION. The handover engines: the shared course of an exchange (R163, R169 to R185) and the meanings of the
terminal telegrams and of the engines' timers. -/

namespace Sys2Proof.Machine

/-! ## RESULT telegrams (R163, R206) -/

/-- The codes of a RESULT telegram (R163). -/
inductive ResultCode where
  | accepted | unknownParty | notPermitted | outsideWindow | clockUnset | busy | fireActive | unexpected | foreign
  | flagged | full | empty | duplicate | badState
  deriving DecidableEq, Repr

/-- The value of a RESULT code (R206). -/
def ResultCode.value : ResultCode → Byte
  | .accepted => 0#8
  | .unknownParty => 1#8
  | .notPermitted => 2#8
  | .outsideWindow => 3#8
  | .clockUnset => 4#8
  | .busy => 5#8
  | .fireActive => 6#8
  | .unexpected => 7#8
  | .foreign => 8#8
  | .flagged => 9#8
  | .full => 10#8
  | .empty => 11#8
  | .duplicate => 12#8
  | .badState => 13#8

/-- The value of an engine state (R206). -/
def EngineState.value : EngineState → Byte
  | .idle => 0#8
  | .opened => 1#8
  | .scanning => 2#8
  | .confirm => 3#8
  | .release => 4#8
  | .intake => 5#8

/-- A RESULT telegram (R163, R206). -/
def resultRequest (h : Hatch) (dest : Nat) (code : ResultCode) (st : EngineState) (size : Nat) : TxRequest :=
  { cls := .display, dest := dest, kind := kindResult, payload := [code.value, st.value, BitVec.ofNat 8 size],
    origin := .result h }

/-- The answer to a taken telegram: the code, the engine's state and the size of its list after the decision (R163). -/
def State.answerResult (s : State) (h : Hatch) (dest : Nat) (code : ResultCode) : State :=
  s.requestTx (resultRequest h dest code (s.engine h).state (s.engine h).list.length)

/-- The end RESULT to one terminal, where a node entry names the hatch (R163). -/
def State.endResult (s : State) (h : Hatch) (c : NodeClass) (code : ResultCode) : State :=
  match s.terminal c h with
  | some a => s.requestTx (resultRequest h a code .idle 0)
  | none => s

/-! ## The end of an exchange (R177, R178, R182, R185) -/

/-- The code of the end RESULTs by the cause of the end (R163). -/
def HandoverCause.endCode : HandoverCause → ResultCode
  | .doorClosed => .accepted
  | .close => .accepted
  | .intakeTimeout => .accepted
  | .fireCommit => .accepted
  | .cancel _ => .accepted
  | .fireAbort => .fireActive
  | .openTimeout => .badState
  | .unlockTimeout => .badState
  | .noLock => .badState

/-- The cartridges of a list with index and label, in list order (R185). -/
def State.listed (s : State) (l : List Nat) : List (Nat × Label) :=
  l.map fun i => (i, ((s.cartridge i).map (·.label)).getD [])

/-- The HANDOVER_RESULT notice, the end RESULTs, the reader's first (log 15), and the return to IDLE (R163, R177,
R185). -/
def State.endExchange (s : State) (h : Hatch) (cause : HandoverCause) (carts : List (Nat × Label))
    (dueBack : Option Nat) (staging : Option (Nat × Nat)) : State :=
  let e := s.engine h
  let s1 := s.post (.handoverResult h e.direction e.courier e.operator e.caseTag cause carts dueBack staging)
  let s2 := (s1.endResult h .hatchReader cause.endCode).endResult h .courierTerminal cause.endCode
  s2.setEngine h Engine.idle

/-- One cartridge of an aborted manifest: PICKED again with its order (R182, R157). -/
def State.abortOne (s : State) (i : Nat) : State :=
  match s.cartridge i with
  | none => s
  | some c =>
    let s1 := s.setCartridge i { c with state := .picked, hatch := none }
    match c.order with
    | some n => s1.moveOrder n .picked
    | none => s1

/-- An abort (R182): the manifest back to the operator's hands, the claim removed, the end told. -/
def State.abortExchange (s : State) (h : Hatch) (cause : HandoverCause) : State :=
  let l := (s.engine h).list
  let s1 := l.foldl State.abortOne s
  let s2 := if cause = .noLock then s1 else s1.dropHandoverClaim h
  s2.endExchange h cause (s.listed l) none none

/-- The due-back of an outbound commit: the clock plus the courier's loan period, saturating (R177, R148, log 23). -/
def State.dueBackOf (s : State) (courier : Option Nat) : Nat :=
  let loan := (((courier.bind s.party).bind (·.courier)).map (·.loan)).getD 0
  min (s.ti.clock + loan * 86400) 4294967295

/-- One cartridge of an outbound commit: AWAY, its order DONE, the held count up (R177). -/
def State.handOut (courier : Option Nat) (due : Nat) (s : State) (i : Nat) : State :=
  match s.cartridge i with
  | none => s
  | some c =>
    let s1 := s.setCartridge i { c with state := .away, courier := courier, dueBack := some due, order := none,
                                        hatch := none, overdue := false }
    let s2 := s1.closeOrderOf c.order .done
    match courier with
    | some id => s2.raiseHeld id
    | none => s2

/-- An outbound commit (R177); one of an empty manifest tells the due-back it would have given (R185, log 41). -/
def State.commitOut (s : State) (h : Hatch) : State :=
  let e := s.engine h
  let due := s.dueBackOf e.courier
  let s1 := (e.list.foldl (State.handOut e.courier due) s).dropHandoverClaim h
  s1.endExchange h .doorClosed (s.listed e.list) (some due) none

/-- One cartridge of an inbound commit: the held count of the courier it names down, STAGING with its rest (R178). -/
def State.takeIn (staging : Option Nat) (a : Nat) (s : State) (i : Nat) : State :=
  match s.cartridge i with
  | none => s
  | some c =>
    (s.lowerHeldOf c.courier).setCartridge i
      { c with state := .staging, staging := staging, acclim := some a, courier := none, dueBack := none, hatch := none,
               overdue := false }

/-- An inbound commit (R178). -/
def State.commitIn (s : State) (h : Hatch) (cause : HandoverCause) : State :=
  let e := s.engine h
  let zone := (s.hatchZone h).map (·.2.staging)
  let a := match zone with
    | some z => s.acclimRequirement z e.caseTemp
    | none => 2880
  let s1 := (e.list.foldl (State.takeIn zone a) s).dropHandoverClaim h
  s1.endExchange h cause (s.listed e.list) none (if e.list = [] then none else zone.map (fun z => (z, a)))

/-! ## Fire, door and release -/

/-- The states in which an exchange may be aborted (9.9). -/
def Engine.abortable (e : Engine) : Bool :=
  match e.state with
  | .opened => true
  | .scanning => true
  | .confirm => true
  | .release => !e.doorOpened
  | .idle => false
  | .intake => false

/-- FIRE_ACTIVE holds or the zone is CONFIRMED (R164, R174). -/
def State.hatchFire (s : State) (z : Nat) : Bool := s.fz.fireActive || (s.fire z).state = .confirmed

/-- A fire event reaches an engine (R180). -/
def State.engineFire (s : State) (h : Hatch) : State :=
  let e := s.engine h
  if e.abortable then s.abortExchange h .fireAbort
  else if e.state = .intake then s.commitIn h .fireCommit
  else s

/-- An inbound engine enters INTAKE, and commits at once under fire (R174). -/
def State.enterIntake (s : State) (h : Hatch) : State :=
  let s1 := s.dropHandoverClaim h
  let s2 := s1.setEngine h { s1.engine h with state := .intake, intakeTimer := some (secs 600) }
  match s2.hatchZone h with
  | some (z, _) => if s2.hatchFire z then s2.commitIn h .fireCommit else s2
  | none => s2

/-- LA hands an engine a change of the hatch lock's door (R172). -/
def State.engineDoor (s : State) (h : Hatch) (d : DoorState) : State :=
  let e := s.engine h
  if e.state = .release then
    match d with
    | .opened => s.setEngine h { e with doorOpened := true, unlockTimer := none }
    | .closed =>
      if e.doorOpened then
        match e.direction with
        | some .inward => s.enterIntake h
        | some .out => s.commitOut h
        | none => s
      else s
    | .unknown => s
  else s

/-- The entry into RELEASE: the claim is placed and the unlock window starts, or the exchange ends NO_LOCK (R171). -/
def State.enterRelease (s : State) (h : Hatch) (sender : Nat) : State :=
  match s.hatchZone h with
  | none => s.abortExchange h .noLock
  | some (_, g) =>
    match s.lock g.lock with
    | none => s.abortExchange h .noLock
    | some _ =>
      let s1 := s.setClaims g.lock (fun c => c.setHandover h true)
      let s2 := s1.setEngine h { s1.engine h with state := .release, doorOpened := false, unlockTimer := some (secs 60) }
      s2.answerResult h sender .accepted

/-! ## Terminal telegrams (R162) -/

/-- The side of a terminal's class (9.2). -/
def sideOf : NodeClass → Option Side
  | .hatchReader => some .reader
  | .courierTerminal => some .courier
  | .probe => none
  | .detector => none
  | .slotStrip => none
  | .lock => none
  | .suppression => none
  | .dehumidifier => none
  | .humidifier => none
  | .pickDisplay => none

/-- An engine takes a terminal telegram from the ring: discarded from a node no longer a terminal, ignored with its
notice at an unbound hatch or from another zone, and otherwise decided by `act` (R162). -/
def State.takeTerminal (s : State) (kind : Byte) (act : Hatch → Side → RingItem → State → State) : State :=
  s.takeHead kind fun it s1 =>
    match s1.node it.src with
    | none => s1
    | some e =>
      match sideOf e.cls, e.hatch with
      | some side, some h =>
        match s1.hatchZone h with
        | none => s1.post (.terminalIgnored it.src e.cls e.zone h it.kind .noHatch)
        | some (z, _) =>
          if e.zone = z then act h side it s1
          else s1.post (.terminalIgnored it.src e.cls e.zone h it.kind .zoneMismatch)
      | _, _ => s1

/-- The answer to a courier's badge at an IDLE engine (R164). -/
def State.courierVerdict (s : State) (h : Hatch) (b : CourierBadge) : ResultCode :=
  match s.hatchZone h with
  | none => .badState
  | some (z, g) =>
    if s.hatchFire z then .fireActive
    else match s.party b.id with
      | none => .unknownParty
      | some p =>
        match p.courier with
        | none => .notPermitted
        | some c =>
          if !p.active then .notPermitted
          else if (if b.direction = .out then !c.outbound else !c.inbound) then .notPermitted
          else if !s.ti.clockSet then .clockUnset
          else if !c.windowContains (minuteOfDay s.ti.clock) then .outsideWindow
          else if (s.lock g.lock).isNone then .badState
          else .accepted

/-- The engine an accepted courier's badge opens (R164). -/
def openedEngine (b : CourierBadge) : Engine :=
  { Engine.idle with
    state := .opened, direction := some b.direction, courier := some b.id, caseTag := b.caseTag,
    caseTemp := (if b.direction = .inward then b.caseTemp else none), openTimer := some (secs 600) }

/-- A BADGE of the COURIER side (R164, R165). -/
def State.courierBadge (s : State) (h : Hatch) (sender : Nat) (b : CourierBadge) : State :=
  if (s.engine h).state = .idle then
    let v := s.courierVerdict h b
    if v = .accepted then (s.setEngine h (openedEngine b)).answerResult h sender .accepted
    else s.answerResult h sender v
  else s.answerResult h sender .busy

/-- The answer to an operator's badge at an OPEN engine (R166). -/
def State.operatorVerdict (s : State) (id : Nat) : ResultCode :=
  match s.party id with
  | none => .unknownParty
  | some p => if p.courier.isSome || !p.active then .notPermitted else .accepted

/-- A BADGE of the READER side (R165, R166). -/
def State.operatorBadge (s : State) (h : Hatch) (sender id : Nat) : State :=
  let e := s.engine h
  if e.state = .opened then
    let v := s.operatorVerdict id
    if v = .accepted then
      (s.setEngine h { e with operator := some id,
                              state := (if e.direction = some .inward then .confirm else .scanning) }).answerResult h
        sender .accepted
    else s.answerResult h sender v
  else s.answerResult h sender .badState

/-- BADGE (R162 to R166). -/
def execBadge (s : State) : Host.Outcome State Fault Refusal :=
  .next (s.takeTerminal kindBadge fun h side it s1 =>
    match side with
    | .courier =>
      match parseCourierBadge it.payload with
      | some b => s1.courierBadge h it.src b
      | none => s1.answerResult h it.src .badState
    | .reader =>
      match parseReaderBadge it.payload with
      | some id => s1.operatorBadge h it.src id
      | none => s1.answerResult h it.src .badState)

/-- A SCAN at a SCANNING engine (R167). -/
def State.scanOut (s : State) (h : Hatch) (sender : Nat) (l : Label) : State :=
  let e := s.engine h
  match s.indexOfLabel l with
  | none => s.answerResult h sender .foreign
  | some i =>
    match s.cartridge i with
    | none => s.answerResult h sender .foreign
    | some c =>
      if i ∈ e.list then s.answerResult h sender .duplicate
      else if 48 ≤ e.list.length then s.answerResult h sender .full
      else if c.flagged then s.answerResult h sender .flagged
      else match c.order.bind s.order with
        | some o =>
          if c.state = .picked ∧ some o.courier = e.courier then
            let s1 := s.setEngine h { e with list := e.list ++ [i] }
            let s2 := (s1.setCartridge i { c with state := .manifested, hatch := some h }).moveOrder o.number .manifested
            s2.answerResult h sender .accepted
          else s.answerResult h sender .unexpected
        | none => s.answerResult h sender .unexpected

/-- A SCAN at an INTAKE engine (R175). -/
def State.scanIn (s : State) (h : Hatch) (sender : Nat) (l : Label) : State :=
  let e := s.engine h
  match s.indexOfLabel l with
  | none => s.answerResult h sender .foreign
  | some i =>
    match s.cartridge i with
    | none => s.answerResult h sender .foreign
    | some c =>
      if i ∈ e.list then s.answerResult h sender .duplicate
      else if 48 ≤ e.list.length then s.answerResult h sender .full
      else if c.state = .away then
        let s1 := s.setEngine h { e with list := e.list ++ [i] }
        (s1.setCartridge i { c with state := .inbound, hatch := some h }).answerResult h sender .accepted
      else s.answerResult h sender .unexpected

/-- SCAN (R162, R167, R168, R175). -/
def execScan (s : State) : Host.Outcome State Fault Refusal :=
  .next (s.takeTerminal kindScan fun h side it s1 =>
    match side, parseLabel it.payload with
    | .reader, some l =>
      match (s1.engine h).state with
      | .scanning => s1.scanOut h it.src l
      | .intake => s1.scanIn h it.src l
      | .idle | .opened | .confirm | .release => s1.answerResult h it.src .badState
    | _, _ => s1.answerResult h it.src .badState)

/-- A taken telegram that ends the exchange is answered by its end RESULT; where no node entry of its class names
the hatch there is none to send (R163). -/
def State.closeReader (s : State) (h : Hatch) (sender : Nat) : State :=
  let e := s.engine h
  match e.state with
  | .scanning =>
    if e.list = [] then s.answerResult h sender .empty
    else (s.setEngine h { e with state := .confirm, first := none }).answerResult h sender .accepted
  | .intake => s.commitIn h .close
  | .idle | .opened | .confirm | .release => s.answerResult h sender .badState

/-- CLOSE (R162, R168, R176). -/
def execClose (s : State) : Host.Outcome State Fault Refusal :=
  .next (s.takeTerminal kindClose fun h side it s1 =>
    if it.payload = [] ∧ side = .reader then s1.closeReader h it.src else s1.answerResult h it.src .badState)

/-- A CONFIRM at an engine (R169). -/
def State.confirmSide (s : State) (h : Hatch) (sender : Nat) (side : Side) : State :=
  let e := s.engine h
  if e.state = .confirm then
    match e.first with
    | none =>
      (s.setEngine h { e with first := some side, confirmTimer := some (secs 30) }).answerResult h sender .accepted
    | some f =>
      if f = side then s.answerResult h sender .accepted
      else (s.setEngine h { e with first := none, confirmTimer := none, openTimer := none }).enterRelease h sender
  else s.answerResult h sender .badState

/-- CONFIRM (R162, R169, R171). -/
def execConfirm (s : State) : Host.Outcome State Fault Refusal :=
  .next (s.takeTerminal kindConfirm fun h side it s1 =>
    if it.payload = [] then s1.confirmSide h it.src side else s1.answerResult h it.src .badState)

/-- CANCEL (R162, R179). -/
def execCancel (s : State) : Host.Outcome State Fault Refusal :=
  .next (s.takeTerminal kindCancel fun h side it s1 =>
    if it.payload = [] ∧ (s1.engine h).abortable then s1.abortExchange h (.cancel side)
    else s1.answerResult h it.src .badState)

/-! ## Timers -/

/-- OPEN_TIMER_EXPIRY (R179). -/
def execOpenTimerExpiry (h : Hatch) (s : State) : Host.Outcome State Fault Refusal :=
  .next (if timerDue (s.engine h).openTimer then s.abortExchange h .openTimeout else s)

/-- CONFIRM_WINDOW_EXPIRY (R170). -/
def execConfirmWindowExpiry (h : Hatch) (s : State) : Host.Outcome State Fault Refusal :=
  let e := s.engine h
  .next (if timerDue e.confirmTimer then s.setEngine h { e with first := none, confirmTimer := none } else s)

/-- UNLOCK_WINDOW_EXPIRY (R173). -/
def execUnlockWindowExpiry (h : Hatch) (s : State) : Host.Outcome State Fault Refusal :=
  .next (if timerDue (s.engine h).unlockTimer then s.abortExchange h .unlockTimeout else s)

/-- INTAKE_TIMER_EXPIRY (R176). -/
def execIntakeTimerExpiry (h : Hatch) (s : State) : Host.Outcome State Fault Refusal :=
  .next (if timerDue (s.engine h).intakeTimer then s.commitIn h .intakeTimeout else s)

end Sys2Proof.Machine
end

