-- ==== Sys2Proof/Machine/Fire.lean ====
section
/-! DEFINITION. The Fire Zone Unit: a change of fire state handed on in order (R116), confirmation and countdown
(R104 to R109), the release and its outcomes (R110, R111), FIRE_ACTIVE and the ALERT (R119, R120), and what the
conditions, the detectors and the station do to a zone (R96 to R103, R112 to R115). -/

namespace Sys2Proof.Machine

/-! ## Telegrams of FZ -/

/-- A RELEASE telegram to a zone's suppression node (R110, R206). -/
def releaseRequest (z node : Nat) : TxRequest :=
  { cls := .fire, dest := node, kind := kindRelease, payload := [BitVec.ofNat 8 z], origin := .release z true }

/-- An ALERT broadcast carrying FIRE_ACTIVE (R120, R206). -/
def alertRequest (on : Bool) : TxRequest :=
  { cls := .fire, dest := 0, kind := kindAlert, payload := [if on then 0x01#8 else 0x00#8], origin := .alert }

/-- On entry into RELEASED: the RELEASE telegram is queued to the suppression node, if there is one (R110). A
telegram of an earlier release has no outcome for this one. -/
def State.queueRelease (s : State) (z : Nat) : State :=
  let s0 := s.killRelease z
  match s0.suppressionNode z with
  | none => s0
  | some a => (s0.setFire z { s0.fire z with unconfirmed := true }).requestTx (releaseRequest z a)

/-- The RELEASE_FAULT notice of a zone: its reason, its release line and its discharge-check line, which CLEARED carries as
CHECK_FAILED does (R105, R118, log 35). -/
def State.postReleaseFault (s : State) (z : Nat) (failed : Bool) : State :=
  s.post (.releaseFault z failed (s.releaseLine z) ((s.zone z).bind (·.fire.checkLine)))

/-- The outcome of a RELEASE telegram (R110). -/
def State.releaseOutcome (s : State) (z : Nat) (live : Bool) (node : Nat) (o : TxOutcome) : State :=
  if live then
    match o with
    | .delivered => s.setFire z { s.fire z with unconfirmed := false }
    | .noAnswer => s.post (.releaseUnconfirmed z node .noAnswer)
    | .refusedByNode => s.post (.releaseUnconfirmed z node .refusedByNode)
    | .dropped => s.setFire z { s.fire z with pendingRelease := true }
  else s

/-! ## FIRE_ACTIVE (R119, R120) -/

/-- FIRE_ACTIVE is evaluated again; a change is handed to TI, the ALERT, the hatch locks, HE0 and HE1 (R119). -/
def State.evalFireActive (s : State) : State :=
  let now := s.fireActiveNow
  if s.fz.fireActive = now then s
  else
    let s1 : State := { s with fz := { s.fz with fireActive := now } }
    let s2 := if s1.fz.pendingAlert then s1 else s1.requestTx (alertRequest now)
    let s3 := s2.settleFireHolds s2.hatchLocks
    if now then (s3.engineFire .h0).engineFire .h1 else s3

/-! ## Handing a change on (R116) -/

/-- The FIRE_STATE notice of a change made from the state `before` (R117). -/
def State.postFireState (s : State) (z : Nat) (before : FireState) (cause : FireCause) (address : Option Nat) : State :=
  let f := s.fire z
  s.post (.fireState z before f.state cause address f.remaining f.releaseFault f.unconfirmed f.knock.length
    f.alarm.length)

/-- The engine whose hatch zone is the zone, told of the entry into CONFIRMED (R116: step 8, R180). -/
def State.tellHatchEngine (s : State) (z : Nat) : State :=
  match (s.zone z).bind (·.handover) with
  | some g => if (s.fire z).state = .confirmed then s.engineFire g.hatch else s
  | none => s

/-- The steps of R116 after the notice, for a change from `before` to the state the record now has. -/
def State.handOn (s : State) (z : Nat) (before : FireState) : State :=
  let after := (s.fire z).state
  let s2 := if after = .released then s.driveRelease z true
    else if before = .released then s.driveRelease z false else s
  let s3 := if after = .released then s2.queueRelease z else s2
  let s4 := if after.isShutdown && (before = .normal || before = .preAlarm) then s3.shutdownPlant z
    else if after = .normal && before.isShutdown then s3.returnPlant z else s3
  let s5 := s4.settleFireHolds (s4.locksOfZone z)
  let s6 := if after = .released then s5.quarantineZone z else s5
  ((s6.ordersFire z before after).tellHatchEngine z).evalFireActive

/-- A change of a zone's fire state, its record changed by `f`, then handed on (R116). -/
def State.changeFire (s : State) (z : Nat) (cause : FireCause) (address : Option Nat) (f : Fire → Fire) : State :=
  let before := (s.fire z).state
  ((s.setFire z (f (s.fire z))).postFireState z before cause address).handOn z before

/-! ## Countdown and confirmation -/

/-- FZ loads the countdown: COUNTDOWN, or HELD where the abort condition is active (R106). `cause` is the cause of
the entry into COUNTDOWN. -/
def State.loadCountdown (s : State) (z : Nat) (cause : FireCause) : State :=
  let delay := 10 * ((s.zone z).map (·.fire.delay)).getD 0
  if (s.conditions z).abort then
    s.changeFire z .abort none (fun f => { f with state := .held, remaining := some delay, phase := 0 })
  else s.changeFire z cause none (fun f => { f with state := .countdown, remaining := some delay, phase := 0 })

/-- The discharge check passes (R104). -/
def State.dischargeOk (s : State) (z : Nat) : Bool :=
  ((s.zone z).bind (·.fire.checkLine)).isNone || (s.conditions z).discharge

/-- What follows an entry into CONFIRMED: nothing without a release line, the countdown on a passed check,
RELEASE_FAULT on a failed one (R104, R105). -/
def State.dischargeCheck (s : State) (z : Nat) : State :=
  if (s.releaseLine z).isNone then s
  else if s.dischargeOk z then s.loadCountdown z .countdownLoaded
  else ((s.setFire z { s.fire z with releaseFault := true }).postReleaseFault z true).evalFault

/-- The zone becomes CONFIRMED and the confirmation proceeds (R104). -/
def State.confirmFire (s : State) (z : Nat) (cause : FireCause) (address : Option Nat) : State :=
  (s.changeFire z cause address (fun f => { f with state := .confirmed })).dischargeCheck z

/-! ## Detectors -/

/-- A DET_ALARM taken in NORMAL, after the sets: PRE_ALARM, or CONFIRMED by the fall-back to single knock (R98). -/
def State.firstAlarm (s : State) (z d : Nat) : State :=
  if 2 ≤ s.healthy z then s.changeFire z .detAlarm (some d) (fun f => { f with state := .preAlarm })
  else s.confirmFire z .singleKnock (some d)

/-- A DET_ALARM of a detector of a zone (R96 to R99). -/
def State.alarm (s : State) (z d : Nat) : State :=
  if (s.zone z).isNone then s
  else
    let f := s.fire z
    let s1 := s.setFire z
      { f with alarm := setInsert f.alarm d, knock := (if f.state = .isolated then f.knock else setInsert f.knock d) }
    match f.state with
    | .normal => s1.firstAlarm z d
    | .preAlarm => if d ∈ f.knock then s1 else s1.confirmFire z .doubleKnock (some d)
    | .confirmed | .countdown | .held | .released | .isolated => s1

/-- A DET_RESTORE of a detector of a zone (R96, R97). -/
def State.restoreDetector (s : State) (z d : Nat) : State :=
  if (s.zone z).isNone then s
  else s.setFire z { s.fire z with alarm := setErase (s.fire z).alarm d }

/-- FZ takes a new healthy count of a zone (R100). -/
def State.healthyCount (s : State) (z n : Nat) : State :=
  if (s.fire z).state = .preAlarm ∧ n ≤ 1 then s.confirmFire z .healthyCount none else s

/-- A detector a load removes or moves away leaves both sets of its old zone (R101). -/
def State.dropDetector (s : State) (z d : Nat) : State :=
  let f := s.fire z
  s.setFire z { f with knock := setErase f.knock d, alarm := setErase f.alarm d }

/-- DET_ALARM (R97 to R99): FZ reads the source's entry as it stands. -/
def execDetAlarm (s : State) : Host.Outcome State Fault Refusal :=
  .next (s.takeHead kindDetAlarm fun it s1 =>
    match s1.node it.src with
    | some e => if e.cls = .detector then s1.alarm e.zone it.src else s1
    | none => s1)

/-- DET_RESTORE (R97). -/
def execDetRestore (s : State) : Host.Outcome State Fault Refusal :=
  .next (s.takeHead kindDetRestore fun it s1 =>
    match s1.node it.src with
    | some e => if e.cls = .detector then s1.restoreDetector e.zone it.src else s1
    | none => s1)

/-! ## Conditions -/

/-- The panel condition becomes active (R102). -/
def State.panelActive (s : State) (z : Nat) : State :=
  if (s.fire z).state = .normal ∨ (s.fire z).state = .preAlarm then s.confirmFire z .panel none else s

/-- The manual release condition becomes active (R103). -/
def State.manualActive (s : State) (z : Nat) : State :=
  if (s.fire z).state = .normal ∨ (s.fire z).state = .preAlarm then s.confirmFire z .manualRelease none else s

/-- The abort condition becomes active (R107). -/
def State.abortActive (s : State) (z : Nat) : State :=
  if (s.fire z).state = .countdown then s.changeFire z .abort none (fun f => { f with state := .held }) else s

/-- The abort condition becomes inactive: the policy gives the count (R108). -/
def State.abortReleased (s : State) (z : Nat) : State :=
  if (s.fire z).state = .held then
    match s.zone z with
    | some e =>
      match e.fire.policy with
      | .restart => s.loadCountdown z .abortReleased
      | .resume => s.changeFire z .abortReleased none (fun f => { f with state := .countdown, phase := 0 })
    | none => s
  else s

/-- The discharge condition becomes active in CONFIRMED with RELEASE_FAULT set: it is cleared and the countdown
loaded (R105). -/
def State.dischargeActive (s : State) (z : Nat) : State :=
  let f := s.fire z
  if f.state = .confirmed ∧ f.releaseFault then
    (((s.setFire z { f with releaseFault := false }).postReleaseFault z false).evalFault).loadCountdown z .countdownLoaded
  else s

/-- COUNTDOWN_EXPIRY (R106, R109): the countdown of a zone in COUNTDOWN has reached 0. -/
def execCountdownExpiry (zone : Nat) (s : State) : Host.Outcome State Fault Refusal :=
  .next (if (s.fire zone).state = .countdown ∧ (s.fire zone).remaining = some 0 then
      s.changeFire zone .expiry none (fun f => { f with state := .released, remaining := none, phase := 0 })
    else s)

/-! ## Directives and loads -/

/-- FIRE_RESET accepted: the record is changed whole and FIRE_STATE posted, RELEASE_FAULT's CLEARED notice follows,
and the rest is handed on (R112, R116, log 9). -/
def State.resetFire (s : State) (z : Nat) : State :=
  let f := s.fire z
  let s1 := (s.setFire z { f with state := .normal, knock := [], releaseFault := false, unconfirmed := false,
                                  pendingRelease := false, remaining := none, phase := 0 }).killRelease z
  let s2 := s1.postFireState z f.state .fireReset none
  let s3 := if f.releaseFault then (s2.postReleaseFault z false).evalFault else s2
  s3.handOn z f.state

/-- ISOLATE accepted from NORMAL or PRE_ALARM (R113). -/
def State.isolateZone (s : State) (z : Nat) : State :=
  s.changeFire z .isolate none (fun f => { f with state := .isolated, knock := [] })

/-- The replayed alarm of a RESTORE: as a DET_ALARM of the lowest member of the alarm set (R115: step 2). -/
def State.replayAlarm (s : State) (z : Nat) : State :=
  match (s.fire z).alarm with
  | [] => s
  | d :: _ => s.alarm z d

/-- RESTORE accepted: the four steps (R115). -/
def State.restoreZone (s : State) (z : Nat) : State :=
  let s1 := s.changeFire z .restore none (fun f => { f with state := .normal, knock := [] })
  let s2 := s1.replayAlarm z
  let s3 := if (s2.conditions z).panel then s2.panelActive z else s2
  if (s3.conditions z).manual then s3.manualActive z else s3

/-- The removal of a zone's entry: both sets emptied, and ISOLATED becomes NORMAL (R96). -/
def State.removeFireZone (s : State) (z : Nat) : State :=
  let s1 := s.setFire z { s.fire z with knock := [], alarm := [] }
  if (s1.fire z).state = .isolated then s1.changeFire z .zoneRemoved none (fun f => { f with state := .normal }) else s1

/-! ## The offer of a freed place (R22, R111, R120) -/

/-- FZ takes a freed place: the pending ALERT first, else the pending release of the lowest zone. The answer says
whether a telegram was placed. -/
def State.offerFire (s : State) : State × Bool :=
  if s.fz.pendingAlert then
    (({ s with fz := { s.fz with pendingAlert := false } }).placeTx (alertRequest s.fz.fireActive), true)
  else match zoneNumbers.find? (fun z => (s.fire z).pendingRelease) with
    | some z =>
      let s1 := s.setFire z { s.fire z with pendingRelease := false }
      match s1.suppressionNode z with
      | some a => (s1.placeTx (releaseRequest z a), true)
      | none => (s1, false)
    | none => (s, false)

end Sys2Proof.Machine
end

