-- ==== Sys2Proof/Machine/Nodes.lean ====
section
/-! DEFINITION. The Node Table: supervision (R28 to R33), the healthy count (R34), unknown sources (R35), STATUS (R37)
and line errors (R3), with the meanings of the rows NT owns. -/

namespace Sys2Proof.Machine

/-! ## Counts (R32, R34) -/

/-- FAULT or SILENT (R32). -/
def Supervision.down : Supervision → Bool
  | .fault => true
  | .silent => true
  | .ok => false
  | .suspect => false

/-- The number of entries in FAULT or SILENT (R32). -/
def countDown (t : Table NodeEntry) : Nat := (t.filter (fun p => p.2.sup.down)).length

/-- The number of DETECTOR entries naming a zone (R34). -/
def countDetectors (t : Table NodeEntry) (z : Nat) : Nat :=
  (t.filter (fun p => p.2.cls = .detector && p.2.zone = z)).length

/-- The number of a zone's DETECTOR entries in OK or SUSPECT (R34). -/
def countHealthy (t : Table NodeEntry) (z : Nat) : Nat :=
  (t.filter (fun p => p.2.cls = .detector && p.2.zone = z && !p.2.sup.down)).length

/-- The FAULT-or-SILENT count set again, and the fault output evaluated (R32, R52). -/
def State.recountDown (s : State) : State :=
  ({ s with nt := { s.nt with faultSilent := countDown s.nt.nodes } }).evalFault

/-- A zone's healthy count set again; a change of value is handed to FZ (R34, R52, R100). -/
def State.recountHealthy (s : State) (z : Nat) : State :=
  let n := countHealthy s.nt.nodes z
  if s.healthy z = n then s
  else (({ s with nt := { s.nt with healthyCount := s.nt.healthyCount.set z n } }).evalFault).healthyCount z n

/-- A zone's detector count set again, and the fault output evaluated (R34, R52). -/
def State.recountDetectors (s : State) (z : Nat) : State :=
  ({ s with nt := { s.nt with detectorCount := s.nt.detectorCount.set z (countDetectors s.nt.nodes z) } }).evalFault

/-! ## Supervision -/

/-- A change of a node's supervision state: the entry, the NODE_STATE notice, the counts (R32, R34). -/
def State.changeSupervision (s : State) (a : Nat) (e : NodeEntry) (why : NodeReason) : State :=
  let s1 := ((s.setNode a e).post (.nodeState a e.cls e.zone e.sup why)).recountDown
  if e.cls = .detector then s1.recountHealthy e.zone else s1

/-- NT tells the block that commands the node, whatever the kind of the telegram, DET_TROUBLE aside (R33, log 18). -/
def State.tellCommander (s : State) (a : Nat) (c : NodeClass) (kind : Byte) : State :=
  if kind = kindDetTrouble then s
  else match c with
  | .lock => s.lockHeard a
  | .dehumidifier => s.plantHeard a
  | .humidifier => s.plantHeard a
  | .probe | .detector | .slotStrip | .suppression | .hatchReader | .courierTerminal | .pickDisplay => s

/-- The node is heard from: OK, its timer restarted, RECOVERED where due, its commander told (R28, R33). -/
def State.heardFrom (s : State) (a : Nat) (e : NodeEntry) (kind : Byte) : State :=
  let e' := { e with sup := .ok, timer := intervalTimer e.interval }
  let s1 := if e.sup = .ok then s.setNode a e' else s.changeSupervision a e' .recovered
  s1.tellCommander a e.cls kind

/-- What NT does at an acceptance: a DET_TROUBLE of a detector stops the timer alone (R28, R30). -/
def State.nodeAccepted (s : State) (a : Nat) (kind : Byte) : State :=
  match s.node a with
  | none => s
  | some e =>
    if e.cls = .detector ∧ kind = kindDetTrouble then s.setNode a { e with timer := none } else s.heardFrom a e kind

/-- A NO_ANSWER for a destination makes its node SILENT (R31). -/
def State.nodeNoAnswer (s : State) (a : Nat) : State :=
  match s.node a with
  | none => s
  | some e => if e.sup = .silent then s else s.changeSupervision a { e with sup := .silent, timer := none } .noAnswer

/-- A valid telegram from an address without an entry (R35). -/
def State.unknownSource (s : State) (a : Nat) (kind : Byte) : State :=
  if a ∈ s.nt.unknownMarks then s
  else ({ s with nt := { s.nt with unknownMarks := setInsert s.nt.unknownMarks a } }).post (.unknownSource a kind)

/-- A damaged telegram that names a node: its line-error count rises by 1, saturating at 255 (R3). -/
def State.lineError (s : State) (a : Nat) : State :=
  match s.node a with
  | none => s
  | some e => s.setNode a { e with lineErrors := min (e.lineErrors + 1) 255 }

/-- INTERVAL_TIMER_EXPIRY (R29): a timer that an acceptance has restarted does not expire. -/
def execIntervalTimerExpiry (address : Nat) (s : State) : Host.Outcome State Fault Refusal :=
  .next (match s.node address with
    | none => s
    | some e =>
      if timerDue e.timer then
        match e.sup with
        | .ok => s.changeSupervision address { e with sup := .suspect, timer := intervalTimer e.interval } .missed
        | .suspect => s.changeSupervision address { e with sup := .fault, timer := none } .lost
        | .fault => s
        | .silent => s
      else s)

/-- DET_TROUBLE (R30): the report stands where no newer telegram has been accepted from the detector. -/
def execDetTrouble (s : State) : Host.Outcome State Fault Refusal :=
  .next (s.takeHead kindDetTrouble fun it s1 =>
    match s1.node it.src with
    | none => s1
    | some e =>
      if e.cls = .detector ∧ e.lastSeq = some it.seq ∧ e.sup ≠ .fault then
        s1.changeSupervision it.src { e with sup := .fault, timer := none } .trouble
      else s1)

/-- STATUS (R37, R206): the one byte becomes the node's reported condition. -/
def execStatus (s : State) : Host.Outcome State Fault Refusal :=
  .next (s.takeHead kindStatus fun it s1 =>
    match s1.node it.src, it.payload with
    | some e, [b] => s1.setNode it.src { e with condition := some b }
    | _, _ => s1)

end Sys2Proof.Machine
end

