-- ==== Sys2Proof/Machine/Tables.lean ====
section
/-! DEFINITION. Loads and clears of the six tables: the checks of each entry and what an accepted entry does
(R24 to R27, R42 to R48, R60, R143 to R145, R147, R150, R193, R194, R197). -/

namespace Sys2Proof.Machine

/-- An entry is judged: the first failing check gives the code (R193). -/
def judge (checks : List (Bool × Result)) : Option Result := (checks.find? (·.1)).map (·.2)

/-- The hatch's engine is not IDLE. -/
def State.engineBusy (s : State) (h : Hatch) : Bool := (s.engine h).state ≠ .idle

/-! ## Node entries -/

/-- Another address holds an entry that must be alone of its kind (R25). -/
def State.nodeConflict (s : State) (a : Nat) (n : NodeEntry) : Bool :=
  match n.cls with
  | .slotStrip => Table.anyOther s.nt.nodes a (fun e => e.cls = .slotStrip && e.zone = n.zone && e.slotBase = n.slotBase)
  | .hatchReader => Table.anyOther s.nt.nodes a (fun e => e.cls = .hatchReader && e.hatch = n.hatch)
  | .courierTerminal => Table.anyOther s.nt.nodes a (fun e => e.cls = .courierTerminal && e.hatch = n.hatch)
  | .suppression => Table.anyOther s.nt.nodes a (fun e => e.cls = .suppression && e.zone = n.zone)
  | .probe | .detector | .lock | .dehumidifier | .humidifier | .pickDisplay => false

/-- The load removes a node's entry or gives it another class. -/
def classLeft (old : NodeEntry) (new : Option NodeEntry) : Bool := !meets new (fun n => n.cls = old.cls)

/-- A lock with a claim is removed or reclassed (R27). -/
def State.lockInUse (s : State) (a : Nat) (old new : Option NodeEntry) : Bool :=
  meets old (fun o => o.cls = .lock && classLeft o new && meets (s.lock a) (·.claims.any))

/-- A terminal of an engine that is not IDLE is removed, reclassed or moved to another hatch (R27). -/
def State.terminalInUse (s : State) (old new : Option NodeEntry) : Bool :=
  meets old (fun o => isTerminal o.cls && meets o.hatch s.engineBusy
    && (classLeft o new || !meets new (fun n => n.hatch = o.hatch)))

/-- A DETECTOR or a SUPPRESSION node (R27). -/
def NodeEntry.fireRelevant (e : NodeEntry) : Bool := e.cls = .detector || e.cls = .suppression

/-- The load adds, removes, reclasses or moves a DETECTOR or SUPPRESSION node of a zone in fire (R27). -/
def State.fireNodeActive (s : State) (old new : Option NodeEntry) : Bool :=
  (meets old (·.fireRelevant) || meets new (·.fireRelevant))
    && !(match old, new with
      | some o, some n => o.cls = n.cls && o.zone = n.zone
      | none, none => true
      | _, _ => false)
    && (meets old (fun o => !s.quietZone o.zone) || meets new (fun n => !s.quietZone n.zone))

/-- The checks of a node entry, or of a removal, after its ranges (R25, R27). -/
def State.judgeNode (s : State) (a : Nat) (new : Option NodeEntry) : Option Result :=
  let old := s.node a
  judge [(meets new (s.nodeConflict a), .conflict), (s.lockInUse a old new, .inUse), (s.terminalInUse old new, .inUse),
    (s.fireNodeActive old new, .zoneActive)]

/-- The detector and healthy counts of the zones of a DETECTOR entry set again (R26, R34). -/
def State.recountFor (s : State) (e : Option NodeEntry) : State :=
  match e with
  | some e => if e.cls = .detector then (s.recountDetectors e.zone).recountHealthy e.zone else s
  | none => s

/-- LA is told of a LOCK entry before or after the load (R26, R53). -/
def State.reloadLock (s : State) (a : Nat) (old new : Option NodeEntry) : State :=
  match meets old (·.cls = .lock), meets new (·.cls = .lock) with
  | true, true => s.settleFireHold a
  | true, false => s.removeLock a
  | false, true => s.createLock a
  | false, false => s

/-- A node entry is placed or removed, with its consequences (R26, R101). -/
def State.applyNode (s : State) (a : Nat) (new : Option NodeEntry) : State :=
  let old := s.node a
  let marks := if old.isSome && new.isNone then setErase s.nt.unknownMarks a else s.nt.unknownMarks
  let s1 : State := { s with nt := { s.nt with nodes := Table.set s.nt.nodes a new, unknownMarks := marks } }
  let s2 := match old with
    | some o =>
      if o.cls = NodeClass.detector && !meets new (fun n => n.cls = NodeClass.detector && n.zone = o.zone) then s1.dropDetector o.zone a
      else s1
    | none => s1
  (((s2.recountFor old).recountFor new).reloadLock a old new).recountDown

/-! ## Zone entries -/

/-- The addresses a zone entry names with the class each must have: dehumidifier, humidifier, pick display, hatch
lock (R43). -/
def ZoneEntry.named (e : ZoneEntry) : List (Nat × NodeClass) :=
  ((e.climate.bind (·.dehum)).toList.map (fun a => (a, .dehumidifier)))
    ++ ((e.climate.bind (·.hum)).toList.map (fun a => (a, .humidifier)))
    ++ (e.fire.display.toList.map (fun a => (a, .pickDisplay)))
    ++ (e.handover.toList.map (fun g => (g.lock, .lock)))

/-- The zone entry a HANDOVER entry's staging zone would have with the entry itself placed: its kind is judged so, while
its place must have held an entry before (R43, log 28). -/
def State.stagingOf (s : State) (z : Nat) (e : ZoneEntry) (g : HandoverGroup) : Option ZoneEntry :=
  if g.staging = z then some e else s.zone g.staging

/-- The entry names a node as its dehumidifier or as its humidifier (R43, R81). -/
def ZoneEntry.namesUnit (e : ZoneEntry) (a : Nat) : Bool :=
  e.climate.bind (·.dehum) = some a || e.climate.bind (·.hum) = some a

/-- The checks of R43 for an entry that is placed. -/
def State.zoneChecks (s : State) (z : Nat) (e : ZoneEntry) : List (Bool × Result) :=
  let other (p : ZoneEntry → Bool) : Bool := Table.anyOther s.zt.zones z p
  [ (e.named.any (fun p => (s.node p.1).isNone), .notFound),
    (e.named.any (fun p => !s.hasClass p.1 p.2), .range),
    (meets e.handover (fun g => (s.zone g.staging).isNone), .notFound),
    (meets e.handover (fun g => !meets (s.stagingOf z e g) (fun x => x.kind = .staging)), .range),
    (meets e.fire.line (fun q => other (fun x => x.fire.line = some q)), .conflict),
    (meets (e.climate.bind (·.dehum)) (fun a => other (·.namesUnit a)), .conflict),
    (meets (e.climate.bind (·.hum)) (fun a => other (·.namesUnit a)), .conflict),
    (meets e.handover (fun g => other (fun x => meets x.handover (fun y => y.hatch = g.hatch || y.lock = g.lock))),
      .conflict) ]

/-- The load removes a zone's entry or gives it another kind. -/
def kindLeft (old : ZoneEntry) (new : Option ZoneEntry) : Bool := !meets new (fun n => n.kind = old.kind)

/-- The fire fields but for the release delay (R44, R45). -/
def FireGroup.sameButDelay (a b : FireGroup) : Bool :=
  a.line = b.line && a.policy = b.policy && a.checkLine = b.checkLine && a.display = b.display

/-- A staging zone that a HANDOVER zone names, or that holds a cartridge in STAGING or READY (R44). -/
def State.stagingInUse (s : State) (z : Nat) : Bool :=
  Table.anyOther s.zt.zones z (fun x => meets x.handover (fun g => g.staging = z))
    || s.cat.cartridges.any (fun p => (p.2.state = .staging || p.2.state = .ready) && p.2.staging = some z)

/-- The checks of R44 against live work. -/
def State.zoneLiveChecks (s : State) (z : Nat) (old : ZoneEntry) (new : Option ZoneEntry) : List (Bool × Result) :=
  [ (old.kind = .storage && kindLeft old new && s.cat.cartridges.any (fun p => p.2.homeZone = z), .inUse),
    (old.kind = .staging && kindLeft old new && s.stagingInUse z, .inUse),
    (meets old.handover (fun g => s.engineBusy g.hatch && (kindLeft old new
      || !meets (new.bind (·.handover)) (fun n => n = g))), .inUse),
    (!s.quietZone z && (kindLeft old new || !meets new (fun n => n.fire.sameButDelay old.fire)), .zoneActive) ]

/-- The checks of a zone entry, or of a removal, after its ranges (R43 to R45). -/
def State.judgeZone (s : State) (z : Nat) (new : Option ZoneEntry) : Option Result :=
  judge ((match new with
      | some e => s.zoneChecks z e
      | none => [])
    ++ (match s.zone z with
      | some o => s.zoneLiveChecks z o new
      | none => []))

/-- The hatch lock a zone entry names. -/
def hatchLockOf (e : Option ZoneEntry) : Option Nat := (e.bind (·.handover)).map (·.lock)

/-- The old and the new hatch lock, ascending (R46, R54). -/
def twoLocks : Option Nat → Option Nat → List Nat
  | some a, some b => if a = b then [a] else [min a b, max a b]
  | some a, none => [a]
  | none, some b => [b]
  | none, none => []

/-- The load takes a zone that keeps its climate group from MANUAL to AUTO (R71, R92). -/
def toAuto (old new : Option ZoneEntry) : Bool :=
  (old.bind (·.climate)).map (·.mode) = some .manual && (new.bind (·.climate)).map (·.mode) = some .auto

/-- A zone entry is placed or removed, with its consequences for CU, PC, LA, LU and FZ (R46, R60, R81, R96, log 25). -/
def State.applyZone (s : State) (z : Nat) (new : Option ZoneEntry) : State :=
  let old := s.zone z
  let gains := (new.bind (·.climate)).isSome
  let had := (old.bind (·.climate)).isSome
  let s1 := if had && !gains then s.emptyClimate z else s
  let s2 : State := { s1 with zt := { s1.zt with zones := Table.set s1.zt.zones z new } }
  let s3 := if gains && !had then s2.setClimate z Climate.empty
    else if toAuto old new then s2.setClimate z { s2.climate z with fromNone := true }
    else s2
  let s4 := s3.reloadPlant z (new.bind (·.climate))
  let s5 := s4.settleFireHolds (twoLocks (hatchLockOf old) (hatchLockOf new))
  let s6 := s5.reloadConditions.evalFault
  if old.isSome && new.isNone then s6.removeFireZone z else s6

/-! ## SITE and line entries -/

/-- The SITE entry is placed or removed (R47, R52). -/
def State.applySite (s : State) (new : Option SiteEntry) : State :=
  ({ s with zt := { s.zt with site := new } }).evalFault

/-- A line of a function, of a zone in fire, may not change (R48). -/
def State.judgeLine (s : State) (n : Nat) (new : Option LineEntry) : Option Result :=
  let old := Table.get s.lu.lines n
  let used (e : LineEntry) : Bool := e.function ≠ .unused
  let active (e : LineEntry) : Bool := !s.quietZone e.zone
  judge [((meets old used || meets new used) && (meets old active || meets new active), .zoneActive)]

/-- A line entry is placed or removed; the conditions change within the load (R48). -/
def State.applyLine (s : State) (n : Nat) (new : Option LineEntry) : State :=
  ({ s with lu := { s.lu with lines := Table.set s.lu.lines n new } }).reloadConditions

/-! ## Party entries -/

/-- A party is named by an engine that is not IDLE (R150). -/
def State.partyEngaged (s : State) (id : Nat) : Bool :=
  [Hatch.h0, Hatch.h1].any (fun h =>
    s.engineBusy h && ((s.engine h).courier = some id || (s.engine h).operator = some id))

/-- The load removes a party, gives it another role or another id (R150). -/
def partyLeft (old : Party) (new : Option Party) : Bool :=
  !meets new (fun n => n.id = old.id && n.courier.isSome = old.courier.isSome)

/-- The checks of a party entry, or of a removal, after its ranges (R147, R150). -/
def State.judgeParty (s : State) (k : Nat) (new : Option Party) : Option Result :=
  let old := Table.get s.pt.parties k
  judge [
    (meets new (fun n => Table.anyOther s.pt.parties k (fun p => p.id = n.id)), .duplicate),
    (meets old (fun o => o.courier.isSome && 0 < s.courierSum o.id && partyLeft o new), .inUse),
    (meets old (fun o => s.partyEngaged o.id && partyLeft o new), .inUse),
    (meets old (fun o => o.courier.isSome && !partyLeft o new
      && meets (new.bind (·.courier)) (fun c => decide (c.limit < s.courierSum o.id))), .conflict) ]

/-- A party entry is placed or removed; a courier that stays keeps its held count (R150). -/
def State.applyParty (s : State) (k : Nat) (new : Option Party) : State :=
  let kept (n : Party) : Party :=
    match Table.get s.pt.parties k, n.courier with
    | some o, some c =>
      if o.id = n.id then { n with courier := some { c with held := ((o.courier.map (·.held)).getD 0) } } else n
    | _, _ => n
  { s with pt := { s.pt with parties := Table.set s.pt.parties k (new.map kept) } }

/-! ## Catalogue entries -/

/-- The states a load may replace (R143). -/
def CartState.loadable : CartState → Bool
  | .shelved => true
  | .away => true
  | .missing => true
  | .ordered => false
  | .picked => false
  | .manifested => false
  | .inbound => false
  | .staging => false
  | .ready => false

/-- The record at an index is in motion (R143, R145). -/
def Cartridge.inMotion (c : Cartridge) : Bool := !c.state.loadable

/-- The courier's sum after an entry replaces the record at an index (R143). -/
def State.sumAfterEntry (s : State) (i id : Nat) : Nat :=
  let back := if meets (s.cartridge i) (fun c => c.state = .away && c.courier = some id) then 1 else 0
  s.heldCount id - back + 1 + s.openOrders id

/-- The checks of a catalogue entry that is placed (R143). -/
def State.judgeCatEntry (s : State) (i : Nat) (e : CatEntry) : Option Result :=
  judge [
    (!meets (s.zone e.homeZone) (fun z => z.kind = .storage), .range),
    (meets (s.cartridge i) (·.inMotion), .inUse),
    (Table.anyOther s.cat.cartridges i (fun c => c.label = e.label
      || (c.homeZone = e.homeZone && c.homeSlot = e.homeSlot)), .duplicate),
    (meets e.courier (fun id => !meets (s.party id) (·.courier.isSome)), .notFound),
    (meets e.courier (fun id => meets ((s.party id).bind (·.courier)) (fun c => decide (c.limit < s.sumAfterEntry i id))),
      .limit) ]

/-- The fresh record of an entry (R144). -/
def CatEntry.fresh (e : CatEntry) : Cartridge :=
  { label := e.label, homeZone := e.homeZone, homeSlot := e.homeSlot, state := e.state, exposure := e.exposure,
    hold := e.hold, quarantine := false, inspect := false, order := none, courier := e.courier, dueBack := e.dueBack,
    overdue := false, hatch := none, staging := none, acclim := none }

/-- The old record leaves its place (R144, R145): an AWAY record's courier holds one fewer. -/
def State.emptyPlace (s : State) (i : Nat) : State :=
  let s1 := match s.cartridge i with
    | some c => if c.state = CartState.away then s.lowerHeldOf c.courier else s
    | none => s
  { s1 with cat := { s1.cat with cartridges := Table.del s1.cat.cartridges i } }

/-- A catalogue entry is placed (R144). -/
def State.applyCatEntry (s : State) (i : Nat) (e : CatEntry) : State :=
  let s1 := (s.emptyPlace i).setCartridge i e.fresh
  match e.state, e.courier with
  | .away, some id => s1.raiseHeld id
  | _, _ => s1

/-! ## Segments (R193, R194) -/

/-- An entry is judged and applied, or refused with its code. -/
def asked {α : Type} (a : Asked α) (verdict : Option α → Option Result) (apply : Option α → State) :
    Except Result State :=
  let go (n : Option α) : Except Result State :=
    match verdict n with
    | some r => .error r
    | none => .ok (apply n)
  match a with
  | .outOfRange => .error .range
  | .remove => go none
  | .place x => go (some x)

/-- One entry of a table at an index (R193). -/
def State.loadEntry (s : State) (t : TableId) (index : Nat) (e : List Byte) : Except Result State :=
  match t with
  | .node => asked (parseNode e) (s.judgeNode (index + 1)) (s.applyNode (index + 1))
  | .zone => asked (parseZone e) (s.judgeZone index) (s.applyZone index)
  | .site => asked (parseSite e) (fun _ => none) s.applySite
  | .line => asked (parseLine (s.lu.raw.getD index .low) e) (s.judgeLine index) (s.applyLine index)
  | .party => asked (parseParty e) (s.judgeParty index) (s.applyParty index)
  | .catalogue =>
    asked (parseCatEntry e)
      (fun n => match n with
        | some x => s.judgeCatEntry index x
        | none => judge [(meets (s.cartridge index) (·.inMotion), .inUse)])
      (fun n => match n with
        | some x => s.applyCatEntry index x
        | none => s.emptyPlace index)

/-- The entries of a segment in offset order, each judged with the earlier ones applied; the first failing entry
refuses the whole with its offset (R193, R194). -/
def State.loadEntries (t : TableId) (first : Nat) : Nat → List (List Byte) → State → Except (Nat × Result) State
  | _, [], s => .ok s
  | off, e :: es, s =>
    match s.loadEntry t (first + off) e with
    | .error r => .error (off, r)
    | .ok s1 => State.loadEntries t first (off + 1) es s1

/-! ## Clears (R197) -/

/-- The zones whose fire state is other than NORMAL or ISOLATED. -/
def State.anyActiveZone (s : State) : Bool := zoneNumbers.any (fun z => !s.quietZone z)

/-- Some engine is not IDLE. -/
def State.anyEngineBusy (s : State) : Bool := s.engineBusy .h0 || s.engineBusy .h1

/-- An engine that is not IDLE has a terminal entry (R197). -/
def State.busyTerminal (s : State) (h : Hatch) : Bool :=
  s.engineBusy h && ((s.terminal .hatchReader h).isSome || (s.terminal .courierTerminal h).isSome)

/-- What refuses a clear (R197, R145, R150). -/
def State.judgeClear (s : State) (t : TableId) : Option Result :=
  match t with
  | .node => judge [
      (s.la.locks.any (fun p => p.2.claims.any) || s.busyTerminal .h0 || s.busyTerminal .h1, .inUse),
      (s.nt.nodes.any (fun p => p.2.fireRelevant && !s.quietZone p.2.zone), .zoneActive)]
  | .zone => judge [(!s.cat.cartridges.isEmpty || s.anyEngineBusy, .inUse), (s.anyActiveZone, .zoneActive)]
  | .line => judge [(s.lu.lines.any (fun p => p.2.function ≠ .unused && !s.quietZone p.2.zone), .zoneActive)]
  | .site => none
  | .catalogue => judge [(s.cat.cartridges.any (fun p => p.2.inMotion), .inUse)]
  | .party => judge [
      (s.pt.parties.any (fun p => p.2.courier.isSome && 0 < s.courierSum p.2.id) || s.anyEngineBusy, .inUse)]

/-- A clear: the removal of every entry, in ascending index order (R197). -/
def State.clearTable (s : State) (t : TableId) : State :=
  match t with
  | .node => (s.nt.nodes.map (·.1)).foldl (fun s a => s.applyNode a none) s
  | .zone => (s.zt.zones.map (·.1)).foldl (fun s z => s.applyZone z none) s
  | .line => (s.lu.lines.map (·.1)).foldl (fun s n => s.applyLine n none) s
  | .site => s.applySite none
  | .catalogue => (s.cat.cartridges.map (·.1)).foldl State.emptyPlace s
  | .party => (s.pt.parties.map (·.1)).foldl (fun s k => s.applyParty k none) s

end Sys2Proof.Machine
end

