-- ==== Sys2Proof/Machine/Directives.lean ====
section
/-! DEFINITION. The directives of the trunk: how TI takes one (R187 to R189, R192), the loads and clears with their
latch (R193 to R197), and the meaning of each directive. -/

namespace Sys2Proof.Machine

/-! ## Taking a directive -/

/-- The code of RESTART (R207). -/
def codeRestart : Byte := 0x50#8

/-- The codes of the directive set (R192, R207). -/
def directiveCodes : List Byte :=
  [0x01#8, 0x02#8, 0x03#8, 0x04#8, 0x05#8, 0x06#8, 0x10#8, 0x11#8, 0x12#8, 0x13#8, 0x14#8, 0x20#8, 0x21#8, 0x22#8,
   0x30#8, 0x31#8, 0x32#8, 0x33#8, 0x40#8, 0x41#8, 0x50#8]

/-- The restart armed mark (R200). -/
def State.arm (s : State) (on : Bool) : State := { s with ti := { s.ti with restartArmed := on } }

/-- The directive that TI has taken is decided where it is this command's: refused UNVERIFIED by the credential read at
the taking, or an armed RESTART is cancelled by a directive of another code and `act` decides it; then TI takes the next
where it may (R187, R189, R192, R200). `open_` says that every credential state decides it. A reply of UNVERIFIED is empty, whatever the
directive's own refusals carry (DESIGN CHOICE, log 50). -/
def State.takeDirective (s : State) (mine : List Byte → Bool) (open_ : Bool) (act : Directive → State → State) :
    State :=
  match s.ti.inHand with
  | some (.deciding d read) =>
    if mine d.body then
      let s1 := s.dropHand
      (if open_ || read.verified then act d (if d.body.head? = some codeRestart then s1 else s1.arm false)
        else s1.reply d .unverified .empty).takeNext
    else s
  | some (.passDown _) => s
  | some (.catalogueLoad ..) => s
  | some (.catalogueClear _) => s
  | none => s

/-- What TI read of the part's state when it took the directive that is under decision (R39, R189, R190). -/
def State.readAtTaking (s : State) : Option Taking :=
  match s.ti.inHand with
  | some (.deciding _ read) => some read
  | some (.passDown _) => none
  | some (.catalogueLoad ..) => none
  | some (.catalogueClear _) => none
  | none => none

/-- CS as it stood when TI took the directive in hand (R190). -/
def State.csAtTaking (s : State) : Cs := (s.readAtTaking.map (·.cs)).getD s.cs

/-- What the pass-down filter refused when TI took the directive in hand (R39). -/
def State.filterAtTaking (s : State) : Option Result := s.readAtTaking.bind (·.filter)

/-- The directive has a code. -/
def hasCode (c : Byte) (body : List Byte) : Bool := body.head? = some c

/-- The body of a fixed length, or BAD_FORM with an empty reply (DESIGN CHOICE, log 50); `act` gets the bytes after the code
(R192). -/
def State.formed (s : State) (d : Directive) (size : Nat) (act : List Byte → State) : State :=
  if d.body.length = size then act (d.body.drop 1) else s.reply d .badForm .empty

/-! ## Identity, credential, code (R189 to R191, R198) -/

/-- IDENTIFY (R198): the capacities are those of the part and stand in the layout. -/
def execIdentify (s : State) : Host.Outcome State Fault Refusal :=
  .next (s.takeDirective (hasCode 0x01#8) true fun d s1 =>
    s1.formed d 1 fun _ => s1.reply d .ok (.identity (s1.zt.site.map (·.ident)) s1.cs.blank))

/-- A code given is the code held, or the store is blank (R190). -/
def Cs.accepts (c : Cs) (code : List Byte) : Bool := c.blank || code = c.code

/-- The credential state changed. -/
def State.setCredential (s : State) (c : Credential) : State := { s with ti := { s.ti with credential := c } }

/-- CHECK_CODE, decided by CS as it stood when TI took it (R190). A match makes the credential VERIFIED also while the carrier
is absent, and directives taken after it are decided (DESIGN CHOICE, log 52). -/
def execCheckCode (s : State) : Host.Outcome State Fault Refusal :=
  let held := s.csAtTaking
  .next (s.takeDirective (hasCode 0x02#8) true fun d s1 =>
    s1.formed d 7 fun code =>
      if held.accepts code then (s1.setCredential .verified).reply d .ok (.credential .verified held.blank)
      else (s1.setCredential .mismatch).reply d .mismatch (.credential .mismatch held.blank))

/-- SET_CODE (R191): a code write starts. -/
def execSetCode (s : State) : Host.Outcome State Fault Refusal :=
  .next (s.takeDirective (hasCode 0x03#8) false fun d s1 =>
    s1.formed d 7 fun code =>
      if s1.cs.writing.isSome then s1.reply d .busy .empty
      else ({ s1 with cs := { s1.cs with writing := some code } }).reply d .ok .empty)

/-- CODE_WRITE_COMPLETION (R191): CS holds the new code with its check. -/
def execCodeWriteCompletion (s : State) : Host.Outcome State Fault Refusal :=
  .next (match s.cs.writing with
    | some code => { s with cs := { code := code, checkOk := true, writing := none } }
    | none => s)

/-! ## Status and clock (R199, R201) -/

/-- The status record as it stands (R201). -/
def State.statusRecord (s : State) : StatusRecord :=
  { causes := s.ti.causes, credential := s.ti.credential, blank := s.cs.blank, writing := s.cs.writing.isSome,
    latch := s.ti.latch, lastLoadError := s.ti.lastLoadError, clockUnset := !s.ti.clockSet, clock := s.ti.clock,
    restartArmed := s.ti.restartArmed, noticesLost := s.ti.noticesLost, protect := s.ti.protect,
    fireActive := s.fz.fireActive, fire := zoneNumbers.map (fun z => (s.fire z).state), congested := s.lif.congested,
    engine0 := s.he0.state, engine1 := s.he1.state, openOrders := s.ol.orders.length }

/-- READ_STATUS (R201). -/
def execReadStatus (s : State) : Host.Outcome State Fault Refusal :=
  .next (s.takeDirective (hasCode 0x04#8) true fun d s1 =>
    s1.formed d 1 fun _ => s1.reply d .ok (.status s1.statusRecord))

/-- CLEAR_STATUS (R201). -/
def execClearStatus (s : State) : Host.Outcome State Fault Refusal :=
  .next (s.takeDirective (hasCode 0x05#8) false fun d s1 =>
    s1.formed d 1 fun _ =>
      ({ s1 with ti := { s1.ti with
          latch := false, lastLoadError := none, noticesLost := 0,
          causes := { powerOn := false, pin := false, supplyLow := false, restart := false } } }).reply d .ok .empty)

/-- SET_CLOCK (R199): the reply carries the clock before the change. -/
def execSetClock (s : State) : Host.Outcome State Fault Refusal :=
  .next (s.takeDirective (hasCode 0x06#8) false fun d s1 =>
    s1.formed d 5 fun f =>
      ({ s1 with ti := { s1.ti with clock := leNat f, clockSet := true } }).reply d .ok (.clock s1.ti.clock))

/-! ## Loads and clears (R193 to R197) -/

/-- The protect flag of a table (R196). -/
def ProtectFlags.of (p : ProtectFlags) : TableId → Bool
  | .node => p.node
  | .zone => p.zone
  | .site => p.site
  | .line => p.line
  | .catalogue => p.catalogue
  | .party => p.party

/-- The flags with one table's flag set or cleared (R196). -/
def ProtectFlags.change (p : ProtectFlags) (t : TableId) (on : Bool) : ProtectFlags :=
  match t with
  | .node => { p with node := on }
  | .zone => { p with zone := on }
  | .site => { p with site := on }
  | .line => { p with line := on }
  | .catalogue => { p with catalogue := on }
  | .party => { p with party := on }

/-- A refusal sets the load error latch, the first failure kept (R195). LATCHED sets nothing. -/
def State.latchError (s : State) (d : Directive) (table : Byte) (offset : Option Nat) (r : Result) : State :=
  if r = .latched ∨ s.ti.latch then s
  else { s with ti := { s.ti with
           latch := true
           lastLoadError := some { directive := bodyCode d.body, table := table, offset := offset, code := r } } }

/-- A LOAD_SEGMENT refused with its table id and offset (R194, R195). -/
def State.refuseLoad (s : State) (d : Directive) (table : Byte) (offset : Option Nat) (r : Result) : State :=
  (s.latchError d table offset r).reply d r (.loadRefused table offset)

/-- A CLEAR_TABLE refused (R195, R197). -/
def State.refuseClear (s : State) (d : Directive) (table : Byte) (r : Result) : State :=
  (s.latchError d table none r).reply d r .empty

/-- The outcome of judging and applying a segment: the reply and, on a pass, the new state (R194). -/
def State.finishLoad (s : State) (d : Directive) (table : Byte) (count : Nat) :
    Except (Nat × Result) State → State
  | .ok s1 => s1.reply d .ok (.loaded count)
  | .error (off, r) => s.refuseLoad d table (some off) r

/-- The fields of a LOAD_SEGMENT body (R207). -/
structure Segment where
  first    : Nat
  count    : Nat
  entries  : List Byte
  checksum : Nat
  deriving DecidableEq, Repr

/-- The segment of a body after its table id, where the length is the one its count and table give (R192, R193). -/
def parseSegment (t : TableId) (f : List Byte) : Option Segment :=
  match f with
  | i0 :: i1 :: c :: rest =>
    let size := c.toNat * entrySize t
    if rest.length = size + 2 then
      some { first := le2 i0 i1, count := c.toNat, entries := rest.take size, checksum := leNat (rest.drop size) }
    else none
  | _ => none

/-- The checks of a segment before its entries, in their order (R193, log 10). -/
def State.judgeSegment (s : State) (t : TableId) (g : Segment) : Option Result :=
  judge [
    (g.count = 0 || 16 < g.count || lastIndex t < g.first + g.count - 1, .range),
    (s.ti.latch, .latched),
    (s.ti.protect.of t, .protected_),
    (segmentSum g.entries ≠ g.checksum, .checksum) ]

/-- A well-formed segment decided: refused, handed to CAT, or judged and applied (R193, R194, R142). -/
def State.loadSegment (s : State) (d : Directive) (table : Byte) (t : TableId) (g : Segment) : State :=
  match s.judgeSegment t g with
  | some r => s.refuseLoad d table none r
  | none =>
    if t = .catalogue then
      { s with ti := { s.ti with inHand := some (.catalogueLoad d g.first g.count g.entries) } }
    else s.finishLoad d table g.count (State.loadEntries t g.first 0 (cutEntries (entrySize t) g.count g.entries) s)

/-- LOAD_SEGMENT (R192 to R195). A body too short to hold a table id is BAD_FORM and sets no latch (R195); its reply is
empty and not two absent fields (DESIGN CHOICE, log 50). -/
def execLoadSegment (s : State) : Host.Outcome State Fault Refusal :=
  .next (s.takeDirective (hasCode 0x10#8) false fun d s1 =>
    match d.body with
    | _ :: table :: f =>
      match tableOf table with
      | none => s1.refuseLoad d table none .badForm
      | some t =>
        match parseSegment t f with
        | some g => s1.loadSegment d table t g
        | none => s1.refuseLoad d table none .badForm
    | _ => s1.reply d .badForm .empty)

/-- A clear decided (R197): checked as a load is, handed to CAT, or applied. -/
def State.decideClear (s : State) (d : Directive) (table : Byte) (t : TableId) : State :=
  match judge [(s.ti.latch, .latched), (s.ti.protect.of t, .protected_)] with
  | some r => s.refuseClear d table r
  | none =>
    if t = .catalogue then { s with ti := { s.ti with inHand := some (.catalogueClear d) } }
    else match s.judgeClear t with
      | some r => s.refuseClear d table r
      | none => (s.clearTable t).reply d .ok .empty

/-- CLEAR_TABLE (R192, R195, R197). -/
def execClearTable (s : State) : Host.Outcome State Fault Refusal :=
  .next (s.takeDirective (hasCode 0x12#8) false fun d s1 =>
    match d.body with
    | [_, table, complement] =>
      match tableOf table with
      | some t => if complement = ~~~table then s1.decideClear d table t else s1.refuseClear d table .badForm
      | none => s1.refuseClear d table .badForm
    | _ :: table :: _ => s1.refuseClear d table .badForm
    | _ => s1.reply d .badForm .empty)

/-- CATALOGUE_COMPLETION (R142 to R145, R75, R187): the work is decided and applied, TI replies, the pending epochs are
worked oldest first, and TI takes the next directive. -/
def execCatalogueCompletion (s : State) : Host.Outcome State Fault Refusal :=
  .next (match s.ti.inHand with
    | some (.catalogueLoad d first count entries) =>
      let s1 := s.dropHand
      (s1.finishLoad d (d.body.getD 1 0x05#8) count
        (State.loadEntries .catalogue first 0 (cutEntries (entrySize .catalogue) count entries) s1)).workPendingEpochs.takeNext
    | some (.catalogueClear d) =>
      let s1 := s.dropHand
      (match s1.judgeClear .catalogue with
        | some r => s1.refuseClear d (d.body.getD 1 0x05#8) r
        | none => (s1.clearTable .catalogue).reply d .ok .empty).workPendingEpochs.takeNext
    | some (.passDown _) => s
    | some (.deciding ..) => s
    | none => s)

/-- PROTECT and UNPROTECT: the flag of the named table (R196). -/
def State.changeProtect (s : State) (d : Directive) (on : Bool) : State :=
  s.formed d 2 fun f =>
    match tableOf (f.headD 0#8) with
    | some t => ({ s with ti := { s.ti with protect := s.ti.protect.change t on } }).reply d .ok .empty
    | none => s.reply d .badForm .empty

/-- PROTECT (R196). -/
def execProtect (s : State) : Host.Outcome State Fault Refusal :=
  .next (s.takeDirective (hasCode 0x13#8) false fun d s1 => s1.changeProtect d true)

/-- UNPROTECT (R196). -/
def execUnprotect (s : State) : Host.Outcome State Fault Refusal :=
  .next (s.takeDirective (hasCode 0x14#8) false fun d s1 => s1.changeProtect d false)

/-! ## Reading (R198) -/

/-- The actuator records of a zone, as READ_ENTRY returns them (R93). DRY stands first: R93 gives no order, and that of R207
is by codes which are free (DESIGN CHOICE, log 46). -/
def State.zoneActuators (s : State) (z : Nat) : List Actuator :=
  (s.actuator z .dry).toList ++ (s.actuator z .wet).toList

/-- What READ_ENTRY returns of a place of a loadable table (R38, R78, R93, R121, R146, R160, R198). -/
def State.entryBody (s : State) (t : TableId) (i : Nat) : ReplyBody :=
  match t with
  | .node => .node (s.node (i + 1))
  | .zone => .zone (s.zone i) (s.climate i) (s.zoneActuators i) (s.fire i)
  | .site => .site s.zt.site
  | .line => .line (Table.get s.lu.lines i)
  | .catalogue => .cartridge ((s.cartridge i).map (fun c => (c, s.currentZone c)))
  | .party =>
    let p := Table.get s.pt.parties i
    .party p ((p.map (fun q => if q.courier.isSome then s.openOrders q.id else 0)).getD 0)

/-- The answer to a READ_ENTRY of a table id and an index (R198). -/
def State.readEntry (s : State) (table : Byte) (i : Nat) : Result × ReplyBody :=
  match tableOf table with
  | some t => if lastIndex t < i then (.range, .empty) else (.ok, s.entryBody t i)
  | none =>
    if table = 0x07#8 then
      match s.order i with
      | some o => (.ok, .order o)
      | none => (.notFound, .empty)
    else (.badForm, .empty)

/-- READ_ENTRY (R198). -/
def execReadEntry (s : State) : Host.Outcome State Fault Refusal :=
  .next (s.takeDirective (hasCode 0x11#8) false fun d s1 =>
    s1.formed d 4 fun f =>
      let r := s1.readEntry (f.headD 0#8) (leNat (f.drop 1))
      s1.reply d r.1 r.2)

/-! ## Orders (R152, R153, R158) -/

/-- What refuses an ORDER of a label for a party (R152). -/
def State.judgeOrder (s : State) (l : Label) (id : Nat) : Option Result :=
  let c := (s.indexOfLabel l).bind s.cartridge
  let f := (s.party id).bind (·.courier)
  judge [
    (s.zt.site.isNone, .badState),
    (!labelOk l || id = 0 || 65534 < id, .range),
    (c.isNone, .notFound),
    (f.isNone, .notFound),
    (!meets c (fun c => c.state = .shelved), .badState),
    (meets c (·.flagged), .flagged),
    (!meets (s.party id) (·.active) || !meets f (·.outbound), .notPermitted),
    (meets f (fun f => decide (f.limit < s.courierSum id + 1)), .limit),
    (64 ≤ s.ol.orders.length, .full) ]

/-- The next order number (R151). -/
def State.newNumber (s : State) : Nat := nextNumber (s.ol.orders.map (·.number)) 65 s.ol.lastNumber

/-- An ORDER accepted: the order placed, the cartridge ORDERED, and the order released where its zone lets orders go
(R153). -/
def State.acceptOrder (s : State) (i : Nat) (c : Cartridge) (id n : Nat) : State :=
  let o : Order := { number := n, index := i, courier := id, state := .waiting, pick := .notSent,
                     timeAccepted := if s.ti.clockSet then some s.ti.clock else none }
  let s1 : State := { s with ol := { orders := s.ol.orders ++ [o], lastNumber := n } }
  let s2 := s1.setCartridge i { c with state := .ordered, order := some n }
  if s2.orderHeld o then s2 else s2.releaseOrder n

/-- The reply to an accepted ORDER: its number and its state (R153). -/
def State.replyOrdered (s : State) (d : Directive) (n : Nat) : State :=
  s.reply d .ok (.ordered n (((s.order n).map (·.state)).getD .waiting))

/-- ORDER (R152, R153). -/
def execOrder (s : State) : Host.Outcome State Fault Refusal :=
  .next (s.takeDirective (hasCode 0x20#8) false fun d s1 =>
    s1.formed d 11 fun f =>
      let l := f.take 8
      let id := leNat (f.drop 8)
      match s1.judgeOrder l id, s1.indexOfLabel l with
      | none, some i =>
        match s1.cartridge i with
        | some c => (s1.acceptOrder i c id s1.newNumber).replyOrdered d s1.newNumber
        | none => s1.reply d .notFound .empty
      | some r, _ => s1.reply d r .empty
      | none, none => s1.reply d .notFound .empty)

/-- A CANCEL_ORDER accepted: the pick settled, the cartridge out of its order, the order closed (R158). -/
def State.cancelOrder (s : State) (o : Order) : State :=
  let s1 := s.settlePick o.number
  let s2 := match s1.cartridge o.index with
    | some c => s1.setCartridge o.index c.withoutOrder
    | none => s1
  s2.closeOrder o.number .cancelled

/-- CANCEL_ORDER (R158). -/
def execCancelOrder (s : State) : Host.Outcome State Fault Refusal :=
  .next (s.takeDirective (hasCode 0x21#8) false fun d s1 =>
    s1.formed d 3 fun f =>
      let n := leNat f
      if n = 0 then s1.reply d .range .empty
      else match s1.order n with
        | none => s1.reply d .notFound .empty
        | some o =>
          if o.state = .manifested then s1.reply d .badState .empty
          else (s1.cancelOrder o).reply d .ok (.cancelled o.state))

/-- An INSPECT_CLEAR accepted (R141). -/
def State.clearInspect (s : State) (i : Nat) (c : Cartridge) : State :=
  let c' := { c with inspect := false, quarantine := false, exposure := 0 }
  (s.setCartridge i c').postCartridge i c.state c' c'.courier .cleared

/-- INSPECT_CLEAR (R141). -/
def execInspectClear (s : State) : Host.Outcome State Fault Refusal :=
  .next (s.takeDirective (hasCode 0x22#8) false fun d s1 =>
    s1.formed d 9 fun l =>
      if !labelOk l then s1.reply d .range .empty
      else match s1.indexOfLabel l with
        | none => s1.reply d .notFound .empty
        | some i =>
          match s1.cartridge i with
          | none => s1.reply d .notFound .empty
          | some c =>
            if c.state = .away ∨ c.state = .inbound ∨ c.state = .manifested then s1.reply d .badState .empty
            else (s1.clearInspect i c).reply d .ok .empty)

/-! ## Fire (R112 to R115) -/

/-- What refuses a FIRE_RESET of a zone (R112). -/
def State.judgeReset (s : State) (z : Nat) : Option Result :=
  let f := s.fire z
  match f.state with
  | .normal => none
  | .isolated => some .badState
  | .countdown => some .active
  | .held => some .active
  | .preAlarm | .confirmed | .released =>
    if f.alarm ≠ [] ∨ (s.conditions z).panel = true then some .active else none

/-- The body of a refused FIRE_RESET (R112). -/
def State.fireBody (s : State) (z : Nat) : ReplyBody :=
  .fire (s.fire z).state (s.fire z).alarm.length (s.conditions z).panel

/-- FIRE_RESET (R112). One refused RANGE is answered with an empty body, there being no record of its zone to tell of
(DESIGN CHOICE, log 47), and so is one refused BAD_FORM or UNVERIFIED, which names no zone or is not judged (log 50). -/
def execFireReset (s : State) : Host.Outcome State Fault Refusal :=
  .next (s.takeDirective (hasCode 0x30#8) false fun d s1 =>
    s1.formed d 2 fun f =>
      let z := leNat f
      if 15 < z then s1.reply d .range .empty
      else match s1.judgeReset z with
        | some r => s1.reply d r (s1.fireBody z)
        | none =>
          if (s1.fire z).state = .normal then s1.reply d .ok .empty else (s1.resetFire z).reply d .ok .empty)

/-- ISOLATE (R113). -/
def execIsolate (s : State) : Host.Outcome State Fault Refusal :=
  .next (s.takeDirective (hasCode 0x31#8) false fun d s1 =>
    s1.formed d 2 fun f =>
      let z := leNat f
      if 15 < z then s1.reply d .range .empty
      else if (s1.zone z).isNone then s1.reply d .notFound .empty
      else match (s1.fire z).state with
        | .normal | .preAlarm => (s1.isolateZone z).reply d .ok .empty
        | .isolated => s1.reply d .ok .empty
        | .confirmed | .countdown | .held | .released => s1.reply d .active .empty)

/-- RESTORE (R115). -/
def execRestore (s : State) : Host.Outcome State Fault Refusal :=
  .next (s.takeDirective (hasCode 0x32#8) false fun d s1 =>
    s1.formed d 2 fun f =>
      let z := leNat f
      if 15 < z then s1.reply d .range .empty
      else if (s1.fire z).state = .isolated then (s1.restoreZone z).reply d .ok .empty
      else s1.reply d .badState .empty)

/-! ## Locks and nodes (R38 to R40, R55) -/

/-- MAINT_UNLOCK (R55): the reply carries the commanded state after the decision. -/
def execMaintUnlock (s : State) : Host.Outcome State Fault Refusal :=
  .next (s.takeDirective (hasCode 0x33#8) false fun d s1 =>
    s1.formed d 4 fun f =>
      let a := leNat (f.take 1)
      let t := leNat (f.drop 1)
      if !addressInRange a ∨ t = 0 ∨ 300 < t then s1.reply d .range .empty
      else match s1.lock a with
        | none => s1.reply d .notFound .empty
        | some l =>
          if l.claims.fireHold then s1.reply d .badState .empty
          else
            let s2 := s1.setClaims a (fun c => { c with maintenance := some (secs t) })
            s2.reply d .ok (.commanded (((s2.lock a).map (·.commanded)).getD .locked)))

/-- A PASS_DOWN that passes: held in hand, its telegram queued in the DISPLAY class (R40). -/
def State.passDown (s : State) (d : Directive) (dest : Nat) (kind : Byte) (payload : List Byte) : State :=
  ({ s with ti := { s.ti with inHand := some (.passDown d) } }).requestTx
    { cls := .display, dest := dest, kind := kind, payload := payload, origin := .passDown }

/-- PASS_DOWN, decided by the filter against the state at the taking (R39, R40). -/
def execPassDown (s : State) : Host.Outcome State Fault Refusal :=
  let refused := s.filterAtTaking
  .next (s.takeDirective (hasCode 0x40#8) false fun d s1 =>
    match d.body with
    | _ :: dest :: kind :: p :: payload =>
      if payload.length = p.toNat then
        match refused with
        | some r => s1.reply d r .empty
        | none => s1.passDown d dest.toNat kind payload
      else s1.reply d .badForm .empty
    | _ => s1.reply d .badForm .empty)

/-- QUERY_NODE (R38): the fields as they stood, then the count and the mark cleared. -/
def execQueryNode (s : State) : Host.Outcome State Fault Refusal :=
  .next (s.takeDirective (hasCode 0x41#8) false fun d s1 =>
    s1.formed d 2 fun f =>
      let a := leNat f
      if !addressInRange a then s1.reply d .range .empty
      else match s1.node a with
        | none => s1.reply d .notFound .empty
        | some e => (s1.setNode a { e with lineErrors := 0, rangeMark := false }).reply d .ok (.queried e))

/-! ## RESTART (R200) -/

/-- RESTART_PHASE_1 (R200): a RESTART of phase 1; a RESTART malformed or of another value is refused here (log 16). -/
def execRestartPhase1 (s : State) : Host.Outcome State Fault Refusal :=
  .next (s.takeDirective (fun b => hasCode codeRestart b && b ≠ [codeRestart, 0x02#8]) false fun d s1 =>
    s1.formed d 2 fun f =>
      if f = [0x01#8] then
        if s1.fz.fireActive then s1.reply d .badState .empty else (s1.arm true).reply d .ok .empty
      else s1.reply d .range .empty)

/-- The reply after whose last byte the part resets, and the ingress taken no more (R200). -/
def State.acceptRestart (s : State) (d : Directive) : State :=
  { s with ti := { s.ti with
      restartArmed := false, restartPending := true
      replies := s.ti.replies ++ [{ tag := d.tag, code := codeRestart, result := .ok, body := .empty, restarts := true }] } }

/-- RESTART_PHASE_2 (R200). -/
def execRestartPhase2 (s : State) : Host.Outcome State Fault Refusal :=
  .next (s.takeDirective (fun b => b = [codeRestart, 0x02#8]) false fun d s1 =>
    if !s1.ti.restartArmed then s1.reply d .badState .empty
    else if s1.fz.fireActive then (s1.arm false).reply d .badState .empty
    else s1.acceptRestart d)

/-- UNKNOWN_DIRECTIVE (R192): a code outside the directive set, or a body without one, is BAD_FORM. -/
def execUnknownDirective (s : State) : Host.Outcome State Fault Refusal :=
  .next (s.takeDirective
    (fun b => match b with
      | [] => true
      | c :: _ => !directiveCodes.contains c)
    false fun d s1 => s1.reply d .badForm .empty)

end Sys2Proof.Machine
end

