-- ==== Sys2Proof/Machine/Lines.lean ====
section
/-! DEFINITION. The Line Unit: raw changes and settled edges (R49), and the conditions handed to FZ (R50). -/

namespace Sys2Proof.Machine

/-- A zone's condition has changed and is handed to FZ; a zone without an entry ignores it (R50, R96). -/
def State.conditionEdges (s : State) (z : Nat) (before after : Conditions) : State :=
  if (s.zone z).isNone then s
  else
    let s1 := if before.abort = after.abort then s else if after.abort then s.abortActive z else s.abortReleased z
    let s2 := if !before.manual && after.manual then s1.manualActive z else s1
    let s3 := if !before.panel && after.panel then s2.panelActive z else s2
    if !before.discharge && after.discharge then s3.dischargeActive z else s3

/-- The conditions of a zone computed again after an edge, each change handed on (R50). -/
def State.settledEdge (s : State) (z : Nat) : State :=
  let after := s.computeConditions z
  ({ s with lu := { s.lu with conditions := s.lu.conditions.set z after } }).conditionEdges z (s.conditions z) after

/-- The line after its raw level became `level`: the settle timer runs while the two differ (R49). -/
def LineEntry.rawChanged (l : LineEntry) (level : Level) : LineEntry :=
  { l with timer := (if level = l.settled then none else some l.settle) }

/-- RAW_LEVEL_CHANGE (R49): a level that stands already is no change. -/
def execRawLevelChange (line : Nat) (level : Level) (s : State) : Host.Outcome State Fault Refusal :=
  .next (if s.lu.raw.getD line level = level then s
    else
      let s1 : State := { s with lu := { s.lu with raw := s.lu.raw.set line level } }
      match Table.get s1.lu.lines line with
      | none => s1
      | some l => { s1 with lu := { s1.lu with lines := Table.put s1.lu.lines line (l.rawChanged level) } })

/-- SETTLE_TIMER_EXPIRY (R49, R50): the settled level takes the raw level, and the edge is handed on. -/
def execSettleTimerExpiry (line : Nat) (s : State) : Host.Outcome State Fault Refusal :=
  .next (match Table.get s.lu.lines line with
    | none => s
    | some l =>
      if timerDue l.timer then
        let l' := { l with settled := s.lu.raw.getD line l.settled, timer := none }
        ({ s with lu := { s.lu with lines := Table.put s.lu.lines line l' } }).settledEdge l.zone
      else s)

end Sys2Proof.Machine
end

