-- ==== Sys2Proof/Machine/Link.lean ====
section
/-! DEFINITION. The trunk's link: frames received (R186, R187), the transmitter (R188, R204), the carrier (R189, R200,
R205), and the resets (R202), which share one operation with the end of a restart's reply. -/

namespace Sys2Proof.Machine

/-! ## Resets -/

/-- CS at the start after a reset: a write in progress leaves a code whose check fails (R191, log 7). -/
def Cs.restarted (c : Cs) : Cs :=
  match c.writing with
  | some new => { code := Config.tornCode c.code new, checkOk := false, writing := none }
  | none => c

/-- Every block resets; the outside's levels, its commands, the causes and CS are kept (R202, log 6, 20). -/
def State.resetWith (s : State) (causes : ResetCauses) : State :=
  let cs := s.cs.restarted
  { State.reset with
    pending := s.pending
    lu := { State.reset.lu with raw := s.lu.raw }
    ti := { State.reset.ti with
            causes := causes, carrier := s.ti.carrier,
            notices := [{ cls := 3, tag := 0#16, body := .startup causes (!cs.checkOk) }] }
    cs := cs }

/-- POWER_ON (R202): the set of causes is emptied first. -/
def execPowerOn (s : State) : Host.Outcome State Fault Refusal :=
  .next (s.resetWith { powerOn := true, pin := false, supplyLow := false, restart := false })

/-- PIN (R202). -/
def execPin (s : State) : Host.Outcome State Fault Refusal := .next (s.resetWith { s.ti.causes with pin := true })

/-- SUPPLY_LOW (R202). -/
def execSupplyLow (s : State) : Host.Outcome State Fault Refusal :=
  .next (s.resetWith { s.ti.causes with supplyLow := true })

/-! ## Frames -/

/-- The gap that ends the bytes of a frame rejected for its length, in byte-times (R186). -/
def frameGap : Nat := 10

/-- The code of a DIRECTIVE frame (R207). -/
def frameDirective : Byte := 0x01#8

/-- Bytes of a frame rejected for its length may still follow (R186). -/
def State.setFrameTail (s : State) (on : Bool) : State := { s with ti := { s.ti with frameTail := on } }

/-- A directive arrives: placed at the tail of the ingress, whose head TI takes where it may; answered BUSY where the
ingress is full, or discarded where the reply list holds 7 or more (R187, R188). -/
def State.arrive (s : State) (d : Directive) : State :=
  if s.ti.ingress.length < 4 then ({ s with ti := { s.ti with ingress := s.ti.ingress ++ [d] } }).takeNext
  else if s.ti.replies.length < 7 then s.reply d .busy .empty
  else s

/-- FRAME_RECEIVED (R186, R187). -/
def execFrameReceived (f : Frame) (s : State) : Host.Outcome State Fault Refusal :=
  .next (if !s.ti.carrier || (s.ti.frameTail && decide (f.gap < frameGap)) then s
    else if 600 < f.body.length then s.setFrameTail true
    else
      let s1 := s.setFrameTail false
      if frameCheckMatches f ∧ f.kind = frameDirective then s1.arrive { tag := f.tag, body := f.body } else s1)

/-- FRAME_BYTE_TIMEOUT (R186): the partial frame is discarded and the gap has passed. -/
def execFrameByteTimeout (s : State) : Host.Outcome State Fault Refusal := .next (s.setFrameTail false)

/-- FRAME_LENGTH_ABOVE_600 (R186): no bytes are taken until a gap has passed. -/
def execFrameLengthAbove600 (s : State) : Host.Outcome State Fault Refusal :=
  .next (if s.ti.carrier then s.setFrameTail true else s)

/-! ## The transmitter -/

/-- STARTUP waits at the head of the notice queue: nothing has been sent since the reset (R202, R204). -/
def State.startupWaits (s : State) : Bool := (s.ti.notices.head?.map (fun n => noticeKind n.body)) = some 0

/-- The head of the notice queue leaves it for the transmitter (R204). -/
def State.sendNotice (s : State) : State :=
  match s.ti.notices with
  | [] => s
  | n :: rest => { s with ti := { s.ti with sending := some (.notice n), notices := rest } }

/-- TRUNK_SEND_START (R188, R202, R204): STARTUP is the first frame after a reset; then the oldest waiting reply, else
the head of the notice queue, which leaves it. -/
def execTrunkSendStart (s : State) : Host.Outcome State Fault Refusal :=
  .next (if s.ti.carrier ∧ s.ti.sending.isNone then
      if s.startupWaits then s.sendNotice
      else match s.ti.replies with
        | r :: _ => { s with ti := { s.ti with sending := some (.reply r) } }
        | [] => s.sendNotice
    else s)

/-- TRUNK_SEND_COMPLETE (R188, R200): a sent reply leaves the list, and TI takes the next directive where it may; after
the reply of a RESTART phase 2 the part resets. -/
def execTrunkSendComplete (s : State) : Host.Outcome State Fault Refusal :=
  .next (match s.ti.sending with
    | none => s
    | some (.notice _) => { s with ti := { s.ti with sending := none } }
    | some (.reply r) =>
      if r.restarts then s.resetWith { s.ti.causes with restart := true }
      else ({ s with ti := { s.ti with sending := none, replies := s.ti.replies.tail } }).takeNext)

/-- CARRIER_LOSS (R186, R189, R200, R205): a notice being sent is lost, and a reply stays in its list (log 21). The loss
also ends the bytes of a frame rejected for its length (log 40). -/
def execCarrierLoss (s : State) : Host.Outcome State Fault Refusal :=
  .next (if s.ti.carrier then
      { s with ti := { s.ti with carrier := false, credential := .unverified, restartArmed := false, sending := none,
                                 frameTail := false } }
    else s)

/-- CARRIER_RETURN (R188, R205): the credential is UNVERIFIED at the return, also where a CHECK_CODE was decided while
the carrier was absent. -/
def execCarrierReturn (s : State) : Host.Outcome State Fault Refusal :=
  .next (if s.ti.carrier then s
    else { s with ti := { s.ti with carrier := true, credential := .unverified } })

end Sys2Proof.Machine
end

