-- ==== Sys2Proof/Machine/Loop.lean ====
section
/-! DEFINITION. The Loop Interface: reception (R1 to R6, R9 to R12), access and transmission (R7, R8, R17 to R19), the
acknowledge slot and the departure of an item (R18, R20, R22). -/

namespace Sys2Proof.Machine

/-! ## Durations on the loop, in byte-times (R7) -/

def byteTimeout : Nat := 2
def shortAccessGap : Nat := 4
def longAccessGap : Nat := 10

/-- The BUSY retry delay of 200 ms in ticks (R18). -/
def busyRetryTicks : Nat := 20

/-- The loop in another state (R7). -/
def State.setLoop (s : State) (l : LoopState) : State := { s with lif := { s.lif with loop := l } }

/-- The loop becomes QUIET with a quiet time counted from its last byte (R7). -/
def State.quietLoop (s : State) (quiet : Nat) : State :=
  { s with lif := { s.lif with loop := .quiet, quiet := quiet, tail := false } }

/-- The end of a received telegram: ANSWERING with what the part drives in the acknowledge slot, and QUIET where no
answer is due (R7, R9, log 4). -/
def State.setAnswer (s : State) (a : Option Answer) : State :=
  { s with lif := { s.lif with answer := a, loop := (if a.isSome then .answering else .quiet) } }

/-! ## Reception -/

/-- START_BYTE_RECEIVED (R1, R2): a start byte while QUIET opens a reception, unless it follows a telegram rejected
for its length without a gap longer than the byte timeout. One after the part's answer finds the answer sent (log 4). -/
def execStartByteReceived (quiet : Nat) (s : State) : Host.Outcome State Fault Refusal :=
  .next (let l := s.lif.slotOver
    if l.loop = .quiet then
      if l.tail && decide (quiet ≤ byteTimeout) then { s with lif := { l with quiet := 0 } }
      else { s with lif := { l with loop := .receiving, quiet := 0, tail := false } }
    else s)

/-- A length above 40 ends the reception at the length byte (R2, R3). -/
def State.rejectLength (s : State) (src : Byte) : State :=
  let s1 := s.lineError src.toNat
  { s1 with lif := { s1.lif with loop := .quiet, quiet := 0, tail := true, answer := none } }

/-- BYTE_TIMEOUT (R2, R3). -/
def execByteTimeout (source : Option Byte) (s : State) : Host.Outcome State Fault Refusal :=
  .next (if s.lif.loop = .receiving then
      let s1 := match source with
        | some b => s.lineError b.toNat
        | none => s
      (s1.quietLoop byteTimeout).setAnswer none
    else s)

/-- LENGTH_ABOVE_40 (R2, R3). -/
def execLengthAbove40 (source : Byte) (s : State) : Host.Outcome State Fault Refusal :=
  .next (if s.lif.loop = .receiving then s.rejectLength source else s)

/-- The telegram has come whole to the part: its check matches, and its destination is 127 or 0 (R3). -/
def telegramReaches (t : Telegram) : Bool := telegramCheckMatches t && (t.dest.toNat = 127 || t.dest.toNat = 0)

/-- The answer due in the slot: none after a broadcast (R6, R9). -/
def slotAnswer (t : Telegram) (a : Answer) : Option Answer := if t.dest.toNat = 127 then some a else none

/-- The item of an accepted telegram (1.3). -/
def ringItem (t : Telegram) (e : NodeEntry) : RingItem :=
  { src := t.src.toNat, kind := t.kind, seq := t.seq, payload := t.payload, unicast := t.dest.toNat = 127, cls := e.cls }

/-- Acceptance: the ring, the last accepted sequence, NT, and the relay copy after NT's notices (R10, R28, R36, log 34). -/
def State.accept (s : State) (t : Telegram) (e : NodeEntry) : State :=
  let a := t.src.toNat
  let s1 := ({ s with lif := { s.lif with ring := s.lif.ring ++ [ringItem t e] } }).setAnswer (slotAnswer t .ack)
  let s2 := (s1.setNode a { e with lastSeq := some t.seq }).nodeAccepted a t.kind
  if e.relay then s2.post (.relayed a t.kind t.seq (decide (t.dest.toNat = 127)) t.payload) else s2

/-- A unicast telegram meets a full ring: BUSY, and the first since the mark was clear is told (R11, R12). -/
def State.refuseBusy (s : State) : State :=
  let s1 := s.setAnswer (some .busy)
  if s1.lif.congested then s1
  else ({ s1 with lif := { s1.lif with congested := true } }).post .ingressCongested

/-- A valid telegram decided (R4 to R6, R10, R11). -/
def State.decideTelegram (s : State) (t : Telegram) : State :=
  match s.node t.src.toNat with
  | none => (s.setAnswer (slotAnswer t .ack)).unknownSource t.src.toNat t.kind
  | some e =>
    if e.lastSeq = some t.seq then s.setAnswer (slotAnswer t .ack)
    else if s.lif.ring.length < 16 then s.accept t e
    else if t.dest.toNat = 127 then s.refuseBusy
    else s.setAnswer none

/-- TELEGRAM_RECEIVED (R1 to R7, R9 to R12): the reception ends, and the loop is ANSWERING while the part answers a
valid unicast, else QUIET. A telegram is valid where it reaches the part from a source of 1 to 126; another source names no
node, so no line-error count changes (R3, log 26). -/
def execTelegramReceived (t : Telegram) (s : State) : Host.Outcome State Fault Refusal :=
  .next (if s.lif.loop = .receiving then
      if 40 < t.payload.length then s.rejectLength t.src
      else
        let s1 := s.quietLoop 0
        if telegramReaches t then
          if addressInRange t.src.toNat then s1.decideTelegram t else s1.setAnswer none
        else (s1.lineError t.src.toNat).setAnswer none
    else s)

/-! ## Transmission -/

/-- An eligible item (R17). -/
def TxItem.eligible (it : TxItem) : Bool := it.state = .ready

/-- The item selected: the oldest eligible item of the highest class (R17). The queue stands in arrival order. -/
def selectTx (q : List TxItem) : Option TxItem :=
  let oldest (c : TxClass) : Option TxItem := q.find? (fun it => it.eligible && it.cls = c)
  (oldest .fire).orElse fun _ => (oldest .lock).orElse fun _ => (oldest .actuator).orElse fun _ => oldest .display

/-- The quiet time an item of a class waits for (R7, R17). -/
def accessGap : TxClass → Nat
  | .fire => shortAccessGap
  | .lock => longAccessGap
  | .actuator => longAccessGap
  | .display => longAccessGap

/-- The item of an arrival number changed. -/
def State.mapTx (s : State) (arrival : Nat) (f : TxItem → TxItem) : State :=
  { s with lif := { s.lif with txq := s.lif.txq.map (fun it => if it.arrival = arrival then f it else it) } }

/-- The part starts an item: ON_LOOP, and the sequence counter's value at its first start (R17). -/
def State.startItem (s : State) (it : TxItem) : State :=
  match it.seq with
  | some _ => s.mapTx it.arrival (fun i => { i with state := .onLoop })
  | none =>
    let s1 := s.mapTx it.arrival (fun i => { i with state := .onLoop, seq := some s.lif.txSeq })
    { s1 with lif := { s1.lif with txSeq := s1.lif.txSeq + 1#8 } }

/-- TRANSMIT_START (R7, R17); one after the part's answer finds the answer sent (log 4). -/
def execTransmitStart (quiet : Nat) (s : State) : Host.Outcome State Fault Refusal :=
  .next (if s.lif.slotOver.loop = .quiet then
      match selectTx s.lif.txq with
      | none => s
      | some it =>
        if accessGap it.cls ≤ quiet then
          let s1 := ({ s with lif := s.lif.slotOver }).startItem it
          { s1 with lif := { s1.lif with loop := .sending, quiet := 0, tail := false } }
        else s
    else s)

/-- The item on the loop. -/
def State.onLoop (s : State) : Option TxItem := s.lif.txq.find? (fun it => it.state = .onLoop)

/-- The item on the loop goes back to READY (R8, R18). -/
def State.backToReady (s : State) (it : TxItem) : State := s.mapTx it.arrival (fun i => { i with state := .ready })

/-- LOST_START (R8). -/
def execLostStart (s : State) : Host.Outcome State Fault Refusal :=
  .next (if s.lif.loop = .sending then
      match s.onLoop with
      | some it => (s.backToReady it).setLoop .receiving
      | none => s
    else s)

/-- BROKEN_ATTEMPT (R8, R19). -/
def execBrokenAttempt (s : State) : Host.Outcome State Fault Refusal :=
  .next (if s.lif.loop = .sending then
      match s.onLoop with
      | some it => (s.backToReady it).quietLoop 0
      | none => s
    else s)

/-- UNICAST_SENT (R7). -/
def execUnicastSent (s : State) : Host.Outcome State Fault Refusal :=
  .next (if s.lif.loop = .sending then
      match s.onLoop with
      | some it => if it.dest = 0 then s else s.setLoop .awaiting
      | none => s
    else s)

/-! ## The departure of an item -/

/-- LA takes a freed place: the pending lock of the lowest address is sent its commanded state (R22, R56). -/
def State.offerLock (s : State) : State :=
  match Table.findKey s.la.locks (fun _ l => l.send = .pending) with
  | none => s
  | some a =>
    match s.lock a with
    | none => s
    | some l =>
      (s.setLock a { l with sent := l.commanded, send := .inFlight }).placeTx (lockSetRequest a l.commanded)

/-- A freed place is offered to FZ, and to LA where FZ holds nothing pending (R22). -/
def State.offerPlace (s : State) : State :=
  let r := s.offerFire
  if r.2 then r.1 else r.1.offerLock

/-- The outcome of a telegram's last transmission is handed to its originator (R20). -/
def State.handOutcome (s : State) (origin : Origin) (dest : Nat) (o : TxOutcome) : State :=
  match origin with
  | .release z live => s.releaseOutcome z live dest o
  | .alert => s
  | .lockSet a live => s.lockOutcome a live o
  | .actSet z r p live => s.actOutcome z r p live o
  | .pick n detached => s.pickOutcome n detached dest o
  | .pickWithdraw => s
  | .result _ => s
  | .passDown => s.passDownOutcome o

/-- An item leaves the queue at the end of its transmission: the place is offered, NT is told of a NO_ANSWER, and the
originator receives the outcome (R18, R20, R22, log 8). -/
def State.departTx (s : State) (it : TxItem) (o : TxOutcome) : State :=
  let s1 := (s.removeTx it.arrival).offerPlace
  let s2 := if o = .noAnswer then s1.nodeNoAnswer it.dest else s1
  s2.handOutcome it.origin it.dest o

/-- BROADCAST_SENT (R19). -/
def execBroadcastSent (s : State) : Host.Outcome State Fault Refusal :=
  .next (if s.lif.loop = .sending then
      match s.onLoop with
      | some it => if it.dest = 0 then (s.quietLoop 0).departTx it .delivered else s
      | none => s
    else s)

/-- Nothing in the slot, or a byte other than ACK or BUSY (R18). -/
def State.emptySlot (s : State) (it : TxItem) : State :=
  if it.emptyRetries < 2 then
    s.mapTx it.arrival (fun i => { i with emptyRetries := i.emptyRetries + 1, state := .ready })
  else s.departTx it .noAnswer

/-- BUSY in the slot (R18). -/
def State.busySlot (s : State) (it : TxItem) : State :=
  if it.busyRetries < 5 then
    s.mapTx it.arrival (fun i => { i with busyRetries := i.busyRetries + 1, state := .waiting busyRetryTicks })
  else s.departTx it .refusedByNode

/-- ACKNOWLEDGE_SLOT_ANSWER (R18, R206): 0x4B is ACK and 0xB4 is BUSY. -/
def execAcknowledgeSlotAnswer (answer : Byte) (s : State) : Host.Outcome State Fault Refusal :=
  .next (if s.lif.loop = .awaiting then
      match s.onLoop with
      | none => s
      | some it =>
        let s1 := s.quietLoop 0
        if answer = 0x4B#8 then s1.departTx it .delivered
        else if answer = 0xB4#8 then s1.busySlot it
        else s1.emptySlot it
    else s)

/-- ACKNOWLEDGE_SLOT_EXPIRY (R7, R18): the slot of 2 byte-times passes empty. -/
def execAcknowledgeSlotExpiry (s : State) : Host.Outcome State Fault Refusal :=
  .next (if s.lif.loop = .awaiting then
      match s.onLoop with
      | none => s
      | some it => (s.quietLoop 2).emptySlot it
    else s)

/-- BUSY_RETRY_DELAY_EXPIRY (R18): the item whose delay has run out goes back to READY, its arrival order kept. -/
def execBusyRetryDelayExpiry (arrival : Nat) (s : State) : Host.Outcome State Fault Refusal :=
  .next (s.mapTx arrival (fun it => if it.state = .waiting 0 then { it with state := .ready } else it))

end Sys2Proof.Machine
end

