-- ==== Sys2Proof/Machine/Owners.lean ====
section
/-! DEFINITION. The ring items and the timers of CU, PC, CAT and LA: SAMPLE (R61), SLOT_EVENT (R127), DOOR_STATE (R58),
the item no owner takes (R13), and the expiries of R68, R72, R85, R86, R55 and R58. -/

namespace Sys2Proof.Machine

/-! ## Ring items -/

/-- CU takes a SAMPLE of a node: the first case of R61's table that applies. -/
def State.sampleOf (s : State) (src : Nat) (payload : List Byte) : State :=
  match s.node src with
  | none => s
  | some e =>
    if e.cls = .probe then
      match parseSample payload, s.climateGroup e.zone with
      | some (rh, t), some g => (s.setNode src (e.ranged rh t)).takeSample e.zone g rh t
      | _, _ => s
    else s

/-- SAMPLE (R61 to R63). -/
def execSample (s : State) : Host.Outcome State Fault Refusal :=
  .next (s.takeHead kindSample fun it s1 => s1.sampleOf it.src it.payload)

/-- CAT takes a SLOT_EVENT of a node: the slot is the strip's base plus the offset (R127). -/
def State.slotEventOf (s : State) (src : Nat) (payload : List Byte) : State :=
  match s.node src with
  | none => s
  | some e =>
    if e.cls = .slotStrip then
      match parseSlotEvent payload, e.slotBase with
      | some (.emptied off), some b => s.slotEmptied e.zone (b + off)
      | some (.occupied off l), some b => s.slotOccupied src e.zone (b + off) l
      | _, _ => s
    else s

/-- SLOT_EVENT (R127 to R133); while CAT is busy the item stays at the head (R14, R142). -/
def execSlotEvent (s : State) : Host.Outcome State Fault Refusal :=
  .next (if s.catBusy then s else s.takeHead kindSlotEvent fun it s1 => s1.slotEventOf it.src it.payload)

/-- A lock record after a door report that differs from its door state (R58). -/
def Lock.doorMoved (l : Lock) (d : DoorState) : Lock :=
  match d with
  | .opened => { l with door := .opened, doorTimer := some (secs 120), heldMark := false }
  | .closed => { l with door := .closed, doorTimer := none }
  | .unknown => l

/-- LA takes a door report of a node (R58). -/
def State.doorOf (s : State) (src : Nat) (payload : List Byte) : State :=
  match parseDoor payload, s.lock src with
  | some d, some l =>
    if l.door = d then s
    else
      let s1 := s.setLock src (l.doorMoved d)
      match s1.hatchOfLock src with
      | some h => s1.engineDoor h d
      | none => s1
  | _, _ => s

/-- DOOR_STATE (R58, R206). -/
def execDoorState (s : State) : Host.Outcome State Fault Refusal :=
  .next (s.takeHead kindDoorState fun it s1 => s1.doorOf it.src it.payload)

/-- UNDISPATCHED_ITEM (R13): a head whose class and kind no owner takes, or whose source has no entry, is removed and
discarded. -/
def execUndispatchedItem (s : State) : Host.Outcome State Fault Refusal :=
  .next (match s.lif.ring with
    | [] => s
    | it :: _ => if s.isDispatched it then s else s.popRing)

/-! ## Timers -/

/-- STALE_TIMER_EXPIRY (R68). -/
def execStaleTimerExpiry (zone : Nat) (s : State) : Host.Outcome State Fault Refusal :=
  .next (if timerDue (s.climate zone).stale then s.becomeStale zone else s)

/-- MINUTE_EPOCH (R72, R73): the epoch timer has run out. -/
def execMinuteEpoch (s : State) : Host.Outcome State Fault Refusal :=
  .next (if s.cu.epochTimer = 0 then s.epochExpiry else s)

/-- A run timer has run out and waits for its expiry (R80, log 2). -/
def RunTimer.due (r : RunTimer) : Bool := r = .running 0

/-- RUN_TIMER_EXPIRY (R85). -/
def execRunTimerExpiry (zone : Nat) (role : Role) (s : State) : Host.Outcome State Fault Refusal :=
  .next (match s.actuator zone role with
    | some a => if a.run.due then s.runElapsed zone role else s
    | none => s)

/-- REST_TIMER_EXPIRY (R86). -/
def execRestTimerExpiry (zone : Nat) (role : Role) (s : State) : Host.Outcome State Fault Refusal :=
  .next (match s.actuator zone role with
    | some a => if timerDue a.rest then s.restOver zone role else s
    | none => s)

/-- DOOR_HELD_TIMER_EXPIRY (R58). -/
def execDoorHeldTimerExpiry (address : Nat) (s : State) : Host.Outcome State Fault Refusal :=
  .next (match s.lock address with
    | none => s
    | some l =>
      if timerDue l.doorTimer then
        let s1 := s.setLock address { l with doorTimer := none, heldMark := true }
        if l.heldMark then s1 else s1.post (.doorHeld address l.commanded l.claims)
      else s)

/-- MAINTENANCE_EXPIRY (R55). -/
def execMaintenanceExpiry (address : Nat) (s : State) : Host.Outcome State Fault Refusal :=
  .next (match s.lock address with
    | none => s
    | some l =>
      if timerDue l.claims.maintenance then s.setClaims address (fun c => { c with maintenance := none }) else s)

end Sys2Proof.Machine
end

