-- ==== Sys2Proof/Machine/Dispatch.lean ====
section
/-! DEFINITION. One arm for each command of the table: one direct call of its meaning. -/

namespace Sys2Proof.Machine

def exec (i : Instr) (s : State) : Host.Outcome State Fault Refusal :=
  match i with
  | .telegramReceived t => Sys2Proof.Machine.execTelegramReceived t s
  | .byteTimeout source => Sys2Proof.Machine.execByteTimeout source s
  | .sample => Sys2Proof.Machine.execSample s
  | .detAlarm => Sys2Proof.Machine.execDetAlarm s
  | .detRestore => Sys2Proof.Machine.execDetRestore s
  | .detTrouble => Sys2Proof.Machine.execDetTrouble s
  | .slotEvent => Sys2Proof.Machine.execSlotEvent s
  | .doorState => Sys2Proof.Machine.execDoorState s
  | .status => Sys2Proof.Machine.execStatus s
  | .badge => Sys2Proof.Machine.execBadge s
  | .scan => Sys2Proof.Machine.execScan s
  | .close => Sys2Proof.Machine.execClose s
  | .confirm => Sys2Proof.Machine.execConfirm s
  | .cancel => Sys2Proof.Machine.execCancel s
  | .undispatchedItem => Sys2Proof.Machine.execUndispatchedItem s
  | .transmitStart quiet => Sys2Proof.Machine.execTransmitStart quiet s
  | .lostStart => Sys2Proof.Machine.execLostStart s
  | .brokenAttempt => Sys2Proof.Machine.execBrokenAttempt s
  | .unicastSent => Sys2Proof.Machine.execUnicastSent s
  | .broadcastSent => Sys2Proof.Machine.execBroadcastSent s
  | .acknowledgeSlotAnswer answer => Sys2Proof.Machine.execAcknowledgeSlotAnswer answer s
  | .acknowledgeSlotExpiry => Sys2Proof.Machine.execAcknowledgeSlotExpiry s
  | .busyRetryDelayExpiry arrival => Sys2Proof.Machine.execBusyRetryDelayExpiry arrival s
  | .intervalTimerExpiry address => Sys2Proof.Machine.execIntervalTimerExpiry address s
  | .rawLevelChange line level => Sys2Proof.Machine.execRawLevelChange line level s
  | .settleTimerExpiry line => Sys2Proof.Machine.execSettleTimerExpiry line s
  | .countdownExpiry zone => Sys2Proof.Machine.execCountdownExpiry zone s
  | .doorHeldTimerExpiry address => Sys2Proof.Machine.execDoorHeldTimerExpiry address s
  | .maintenanceExpiry address => Sys2Proof.Machine.execMaintenanceExpiry address s
  | .staleTimerExpiry zone => Sys2Proof.Machine.execStaleTimerExpiry zone s
  | .minuteEpoch => Sys2Proof.Machine.execMinuteEpoch s
  | .runTimerExpiry zone role => Sys2Proof.Machine.execRunTimerExpiry zone role s
  | .restTimerExpiry zone role => Sys2Proof.Machine.execRestTimerExpiry zone role s
  | .openTimerExpiry hatch => Sys2Proof.Machine.execOpenTimerExpiry hatch s
  | .confirmWindowExpiry hatch => Sys2Proof.Machine.execConfirmWindowExpiry hatch s
  | .unlockWindowExpiry hatch => Sys2Proof.Machine.execUnlockWindowExpiry hatch s
  | .intakeTimerExpiry hatch => Sys2Proof.Machine.execIntakeTimerExpiry hatch s
  | .catalogueCompletion => Sys2Proof.Machine.execCatalogueCompletion s
  | .frameReceived f => Sys2Proof.Machine.execFrameReceived f s
  | .frameByteTimeout => Sys2Proof.Machine.execFrameByteTimeout s
  | .identify => Sys2Proof.Machine.execIdentify s
  | .checkCode => Sys2Proof.Machine.execCheckCode s
  | .setCode => Sys2Proof.Machine.execSetCode s
  | .readStatus => Sys2Proof.Machine.execReadStatus s
  | .clearStatus => Sys2Proof.Machine.execClearStatus s
  | .setClock => Sys2Proof.Machine.execSetClock s
  | .loadSegment => Sys2Proof.Machine.execLoadSegment s
  | .readEntry => Sys2Proof.Machine.execReadEntry s
  | .clearTable => Sys2Proof.Machine.execClearTable s
  | .protect => Sys2Proof.Machine.execProtect s
  | .unprotect => Sys2Proof.Machine.execUnprotect s
  | .order => Sys2Proof.Machine.execOrder s
  | .cancelOrder => Sys2Proof.Machine.execCancelOrder s
  | .inspectClear => Sys2Proof.Machine.execInspectClear s
  | .fireReset => Sys2Proof.Machine.execFireReset s
  | .isolate => Sys2Proof.Machine.execIsolate s
  | .restore => Sys2Proof.Machine.execRestore s
  | .maintUnlock => Sys2Proof.Machine.execMaintUnlock s
  | .passDown => Sys2Proof.Machine.execPassDown s
  | .queryNode => Sys2Proof.Machine.execQueryNode s
  | .restartPhase1 => Sys2Proof.Machine.execRestartPhase1 s
  | .restartPhase2 => Sys2Proof.Machine.execRestartPhase2 s
  | .unknownDirective => Sys2Proof.Machine.execUnknownDirective s
  | .codeWriteCompletion => Sys2Proof.Machine.execCodeWriteCompletion s
  | .trunkSendStart => Sys2Proof.Machine.execTrunkSendStart s
  | .trunkSendComplete => Sys2Proof.Machine.execTrunkSendComplete s
  | .carrierLoss => Sys2Proof.Machine.execCarrierLoss s
  | .carrierReturn => Sys2Proof.Machine.execCarrierReturn s
  | .powerOn => Sys2Proof.Machine.execPowerOn s
  | .pin => Sys2Proof.Machine.execPin s
  | .supplyLow => Sys2Proof.Machine.execSupplyLow s
  | .startByteReceived quiet => Sys2Proof.Machine.execStartByteReceived quiet s
  | .lengthAbove40 source => Sys2Proof.Machine.execLengthAbove40 source s
  | .frameLengthAbove600 => Sys2Proof.Machine.execFrameLengthAbove600 s

end Sys2Proof.Machine
end

