-- ==== Sys2Proof/Machine/Time.lean ====
section
/-! DEFINITION. One tick of 10 ms: what the passage of time does to every timer and count (log 2, 5, 22). -/

namespace Sys2Proof.Machine

/-- A timer a tick later: a running timer loses a tick and waits at 0 for its expiry. -/
def tickTimer (t : Timer) : Timer := t.map (· - 1)

/-- Every entry of a table, its place kept. -/
def tableMap {α : Type} (f : α → α) (t : Table α) : Table α := t.map (fun p => (p.1, f p.2))

/-- The answer in a slot has been sent (log 4), and the quiet time counts while the loop is QUIET; it does not begin while
bytes of a telegram rejected for its length may still follow, which only a gap reached by a later event ends (R2, R7). -/
def tickLif (l : Lif) : Lif :=
  let l := l.slotOver
  { l with
    quiet := (if l.loop = .quiet && !l.tail then l.quiet + Config.byteTimesPerTick else l.quiet)
    txq := l.txq.map (fun it =>
      match it.state with
      | .waiting n => { it with state := .waiting (n - 1) }
      | .ready => it
      | .onLoop => it) }

/-- The countdown runs down by one tenth every tenth of a second while the zone is COUNTDOWN (R106). -/
def tickFire (f : Fire) : Fire :=
  match f.state, f.remaining with
  | .countdown, some r =>
    if r = 0 then f
    else if f.phase + 1 < 10 then { f with phase := f.phase + 1 }
    else { f with phase := 0, remaining := some (r - 1) }
  | _, _ => f

/-- The run and rest timers of an actuator record (R80). -/
def tickActuator (a : Actuator) : Actuator :=
  { a with
    run := (match a.run with
      | .running n => .running (n - 1)
      | .stopped => .stopped
      | .elapsed => .elapsed)
    rest := tickTimer a.rest }

/-- The door-held timer and the MAINTENANCE expiry of a lock record (R53, R55). -/
def tickLock (l : Lock) : Lock :=
  { l with
    claims := { l.claims with maintenance := tickTimer l.claims.maintenance }
    doorTimer := tickTimer l.doorTimer }

/-- The timers of an engine (R161). -/
def tickEngine (e : Engine) : Engine :=
  { e with
    openTimer := tickTimer e.openTimer
    confirmTimer := tickTimer e.confirmTimer
    unlockTimer := tickTimer e.unlockTimer
    intakeTimer := tickTimer e.intakeTimer }

/-- The vault clock advances by 1 each second of running and stays at the top of its range (R199). -/
def tickTi (t : Ti) : Ti :=
  if t.clockTicks + 1 < 100 then { t with clockTicks := t.clockTicks + 1 }
  else { t with clockTicks := 0, clock := min (t.clock + 1) 4294967295 }

/-- The machine one tick later. -/
def tick (s : State) : State :=
  { s with
    lif := tickLif s.lif
    nt := { s.nt with nodes := tableMap (fun e => { e with timer := tickTimer e.timer }) s.nt.nodes }
    lu := { s.lu with lines := tableMap (fun l => { l with timer := tickTimer l.timer }) s.lu.lines }
    cu := { s.cu with
            climate := s.cu.climate.map (fun c => { c with stale := tickTimer c.stale })
            epochTimer := s.cu.epochTimer - 1 }
    pc := { s.pc with actuators := tableMap tickActuator s.pc.actuators }
    fz := { s.fz with fire := s.fz.fire.map tickFire }
    la := { s.la with locks := tableMap tickLock s.la.locks }
    he0 := tickEngine s.he0
    he1 := tickEngine s.he1
    ti := tickTi s.ti }

end Sys2Proof.Machine
end

