-- ==== Sys2Proof/Safety.lean ====
section
/-! DEFINITION. What a safe state is, and the situations the statements speak of. -/

namespace Sys2Proof.Machine

/-! ## Invariants -/

/-- Every table and every set of addresses has its one canonical form. -/
def State.tablesWf (s : State) : Bool :=
  Table.wf s.nt.nodes && Table.wf s.zt.zones && Table.wf s.lu.lines && Table.wf s.pc.actuators
    && Table.wf s.la.locks && Table.wf s.cat.cartridges && Table.wf s.pt.parties && setWf s.nt.unknownMarks
    && s.fz.fire.all (fun f => setWf f.knock && setWf f.alarm)

/-- The directive ingress, the reply list and a directive in hand leave a place for the reply of what TI has taken
(R187, R188). -/
def Ti.room (t : Ti) : Bool :=
  t.ingress.length ≤ 4 && t.replies.length ≤ 8 && (t.inHand.isNone || t.replies.length ≤ 7) && t.notices.length ≤ 32

/-- No list of the part passes its capacity: ring 16, transmit queue 24, pending epochs 2, orders 64, a hatch's list 48,
ingress 4, replies 8, notices 32. -/
def State.withinCapacity (s : State) : Bool :=
  s.lif.ring.length ≤ 16 && s.lif.txq.length ≤ 24 && s.cu.epochs.length ≤ 2 && s.ol.orders.length ≤ 64
    && s.he0.list.length ≤ 48 && s.he1.list.length ≤ 48 && s.ti.room

/-- FIRE_ACTIVE holds exactly while some zone is COUNTDOWN, HELD or RELEASED (R119). -/
def State.fireActiveTrue (s : State) : Bool := s.fz.fireActive = s.fireActiveNow

/-- The sixteen zones and the eight outputs have their places. -/
def State.shaped (s : State) : Bool :=
  s.fz.fire.length = 16 && s.cu.climate.length = 16 && s.lu.conditions.length = 16 && s.lu.raw.length = 16
    && s.lu.release.length = 8 && s.nt.detectorCount.length = 16 && s.nt.healthyCount.length = 16

/-- The transmit queue stands in arrival order, every arrival number once and below the counter (1.4, R16). -/
def State.arrivalsRising (s : State) : Bool :=
  setWf (s.lif.txq.map (·.arrival)) && s.lif.txq.all (fun it => it.arrival < s.lif.txArrivals)

/-- Notices stand by class, from 3 down to 0 (R204). -/
def noticesSorted : List Notice → Bool
  | [] => true
  | n :: l => l.all (fun x => x.cls ≤ n.cls) && noticesSorted l

/-- The form every state has: canonical tables, places for every zone and output, the queues in their order. -/
def State.wellFormed (s : State) : Bool :=
  s.tablesWf && s.shaped && s.arrivalsRising && noticesSorted s.ti.notices

/-- What the part computes from its records stands as the records say: the count of nodes in FAULT or SILENT (R32), the
detector and healthy counts of every zone (R34), the conditions of every zone (R50) and the fault output (R52). -/
def State.computedStands (s : State) : Bool :=
  s.nt.faultSilent = countDown s.nt.nodes
    && zoneNumbers.all (fun z => s.nt.detectorCount.getD z 0 = countDetectors s.nt.nodes z
      && s.healthy z = countHealthy s.nt.nodes z && s.conditions z = s.computeConditions z)
    && s.lu.fault = s.faultCondition

/-! ## Situations -/

/-- The item `it` is the one on the loop, between `pre` and `post`, and no other item shares its arrival number. -/
def State.carries (s : State) (pre : List TxItem) (it : TxItem) (post : List TxItem) : Prop :=
  s.lif.txq = pre ++ it :: post ∧ it.state = .onLoop ∧ (∀ x ∈ pre, x.state ≠ .onLoop)
    ∧ ∀ x ∈ pre ++ post, x.arrival ≠ it.arrival

/-- Neither FZ nor LA holds a telegram for a freed place (R22). -/
def State.nothingPending (s : State) : Prop :=
  s.fz.pendingAlert = false ∧ (∀ z < 16, (s.fire z).pendingRelease = false) ∧ ∀ p ∈ s.la.locks, p.2.send ≠ .pending

/-- The head of the ring is an item of a kind that its owner takes. -/
def State.offers (s : State) (it : RingItem) (kind : Byte) (e : NodeEntry) : Prop :=
  s.lif.ring.head? = some it ∧ it.kind = kind ∧ dispatches it.cls kind = true ∧ s.node it.src = some e

/-- The head of the ring is a telegram of a terminal of the hatch's zone, to be taken by the engine (R162). -/
def State.offersTerminal (s : State) (it : RingItem) (kind : Byte) (h : Hatch) (side : Side) (z : Nat)
    (g : HandoverGroup) : Prop :=
  ∃ e, s.offers it kind e ∧ (e.cls = match side with
      | .reader => NodeClass.hatchReader
      | .courier => NodeClass.courierTerminal) ∧ e.hatch = some h ∧ s.hatchZone h = some (z, g) ∧ e.zone = z

/-- The directive TI has taken from the ingress and has not decided, with whether it read VERIFIED (R187, R189). -/
def State.underDecision (s : State) : Option (Directive × Bool) :=
  match s.ti.inHand with
  | some (.deciding d read) => some (d, read.verified)
  | some (.passDown _) => none
  | some (.catalogueLoad ..) => none
  | some (.catalogueClear _) => none
  | none => none

/-- TI has taken a directive from the ingress and has not decided it (R187). -/
abbrev State.hasTaken (s : State) (d : Directive) : Prop :=
  s.underDecision = some (d, true) ∨ s.underDecision = some (d, false)

/-- TI has taken it, and read the credential VERIFIED (R189). -/
abbrev State.hasTakenVerified (s : State) (d : Directive) : Prop := s.underDecision = some (d, true)

/-- The directive in hand is decided: no directive is in hand, and an armed RESTART is cancelled (R187, R192). -/
def State.taken (s : State) : State := { s with ti := { s.ti with inHand := none, restartArmed := false } }

end Sys2Proof.Machine
end

