-- ==== Sys2Proof/Certificates/Slice0/Obligations.lean ====
section
/-! DEFINITION. The statements for the provers. Each says in its docstring the rule or the section it rests on. -/

open Sys2Proof Sys2Proof.Machine

/-! ## The machine -/

/-- The command at the front of the queue is run by `exec` on the state with the queue's rest. -/
def Obligations.StepRunsTheFrontCommand : Prop :=
  ∀ (c : Instr) (rest : List Instr) (s : State), s.pending = c :: rest →
    step s = exec c { s with pending := rest }

/-- On an empty queue one tick of 10 ms passes (the model's choice, log 2): every running timer loses a tick and waits at 0,
be it an interval, settle, stale, epoch, run, rest, door-held, MAINTENANCE or engine timer or a BUSY retry delay; a held
countdown stands still and a running one falls by a tenth at the tenth tick (R106), and the clock advances at the hundredth
(R199; the two prescalers are the model's, log 22). An answer in the slot has been sent (log 4). That a tick leaves the bit
for bytes that may follow a rejected telegram as it is, is the model's choice (log 5). -/
def Obligations.EmptyQueueLetsATickPass : Prop :=
  ∀ s : State, s.pending = [] → ∃ t, step s = .next t ∧ t.pending = []
    ∧ t = { s with lif := t.lif, nt := t.nt, lu := t.lu, cu := t.cu, pc := t.pc, fz := t.fz, la := t.la, he0 := t.he0,
                   he1 := t.he1, ti := t.ti }
    ∧ t.lif.loop = (if s.lif.loop = .answering then .quiet else s.lif.loop) ∧ t.lif.tail = s.lif.tail
    ∧ (∀ a, t.node a = (s.node a).map (fun e => { e with timer := e.timer.map (· - 1) }))
    ∧ (∀ n, Table.get t.lu.lines n = (Table.get s.lu.lines n).map (fun l => { l with timer := l.timer.map (· - 1) }))
    ∧ (∀ z, t.climate z = { s.climate z with stale := (s.climate z).stale.map (· - 1) })
    ∧ t.cu.epochTimer = s.cu.epochTimer - 1 ∧ t.cu.epochs = s.cu.epochs
    ∧ (∀ z r, t.actuator z r = (s.actuator z r).map (fun a => { a with
        rest := a.rest.map (· - 1)
        run := (match a.run with
          | .running n => .running (n - 1)
          | .stopped => .stopped
          | .elapsed => .elapsed) }))
    ∧ (∀ a, t.lock a = (s.lock a).map (fun l => { l with
        doorTimer := l.doorTimer.map (· - 1)
        claims := { l.claims with maintenance := l.claims.maintenance.map (· - 1) } }))
    ∧ (∀ h, let e := s.engine h
        t.engine h = { e with openTimer := e.openTimer.map (· - 1), confirmTimer := e.confirmTimer.map (· - 1),
                              unlockTimer := e.unlockTimer.map (· - 1), intakeTimer := e.intakeTimer.map (· - 1) })
    ∧ (∀ (i : Nat) (it : TxItem), s.lif.txq[i]? = some it → ∃ u, t.lif.txq[i]? = some u
        ∧ (∀ n, it.state = .waiting n → u = { it with state := .waiting (n - 1) })
        ∧ (it.state = .ready ∨ it.state = .onLoop → u = it))
    ∧ (∀ (z : Nat) (f : Fire), s.fz.fire[z]? = some f → f.state ≠ .countdown ∨ f.remaining = some 0 → t.fz.fire[z]? = some f)
    ∧ (∀ (z : Nat) (f : Fire) (r : Nat), s.fz.fire[z]? = some f → f.state = .countdown → f.phase < 9 → f.remaining = some (r + 1) →
        t.fz.fire[z]? = some { f with phase := f.phase + 1 })
    ∧ (∀ (z : Nat) (f : Fire) (r : Nat), s.fz.fire[z]? = some f → f.state = .countdown → f.phase = 9 → f.remaining = some (r + 1) →
        t.fz.fire[z]? = some { f with phase := 0, remaining := some r })
    ∧ (s.ti.clockTicks < 99 → t.ti.clock = s.ti.clock ∧ t.ti.clockTicks = s.ti.clockTicks + 1)
    ∧ (s.ti.clockTicks = 99 → s.ti.clock < 4294967295 → t.ti.clock = s.ti.clock + 1)
    ∧ (s.ti.clockTicks = 99 → s.ti.clock = 4294967295 → t.ti.clock = s.ti.clock)

/-- What the rules say of the state after a reset: R15, R23, R41, R48, R51 to R53, R79, R94, R95, R122, R151, R160,
R161, R187 to R189, R195, R196, R199, R200, R203, R204. That the STARTUP notice waiting there carries no CODE_LOST is the
model's choice (log 7: a code store never written has a good check). -/
def Obligations.ResetHoldsTheStatedValues : Prop :=
  State.reset.lif.ring = [] ∧ State.reset.lif.congested = false ∧ State.reset.lif.txq = []
    ∧ State.reset.lif.txSeq = 0#8 ∧ State.reset.lif.loop = .quiet ∧ State.reset.lif.quiet = 0
    ∧ State.reset.nt.nodes = [] ∧ State.reset.nt.unknownMarks = [] ∧ State.reset.nt.faultSilent = 0
    ∧ (∀ z, State.reset.healthy z = 0) ∧ (∀ z, State.reset.nt.detectorCount.getD z 0 = 0) ∧ State.reset.zt.zones = [] ∧ State.reset.zt.site = none
    ∧ State.reset.lu.lines = [] ∧ (∀ z, State.reset.conditions z = Conditions.inactive)
    ∧ (∀ b ∈ State.reset.lu.release, b = false) ∧ State.reset.lu.fault = true
    ∧ (∀ z, State.reset.climate z = Climate.empty) ∧ State.reset.cu.epochs = []
    ∧ State.reset.cu.epochTimer = secs 60 ∧ State.reset.pc.actuators = []
    ∧ (∀ z, State.reset.fire z = Fire.initial) ∧ State.reset.fz.fireActive = false
    ∧ State.reset.fz.pendingAlert = false ∧ State.reset.la.locks = [] ∧ State.reset.cat.cartridges = []
    ∧ State.reset.ol.orders = [] ∧ State.reset.ol.lastNumber = 0 ∧ State.reset.pt.parties = []
    ∧ (∀ h, State.reset.engine h = Engine.idle) ∧ State.reset.ti.ingress = [] ∧ State.reset.ti.inHand = none
    ∧ State.reset.ti.replies = [] ∧ State.reset.ti.credential = .unverified ∧ State.reset.ti.latch = false
    ∧ State.reset.ti.lastLoadError = none ∧ State.reset.ti.protect = ProtectFlags.clear
    ∧ State.reset.ti.clock = 0 ∧ State.reset.ti.clockSet = false ∧ State.reset.ti.restartArmed = false
    ∧ State.reset.ti.noticesLost = 0 ∧ State.reset.ti.noticeTag = 1#16
    ∧ ∃ c, State.reset.ti.notices = [{ cls := 3, tag := 0#16, body := .startup c false }]

/-- POWER_ON, PIN and SUPPLY_LOW leave every block as a reset leaves it, with one STARTUP notice that carries the
causes (R202). What is kept: the commands that wait and the outside's raw levels and carrier (the model's choice,
log 6, 20), and the code store, whose check fails after a reset that falls during a code write (R191). -/
def Obligations.ResetsActAlikeOnEveryBlock : Prop :=
  ∀ s : State,
    let after (causes : ResetCauses) (t : State) : Prop :=
      t = { State.reset with
            pending := s.pending
            lu := { State.reset.lu with raw := s.lu.raw }
            cs := t.cs
            ti := { State.reset.ti with
                    causes := causes, carrier := s.ti.carrier
                    notices := [{ cls := 3, tag := 0#16, body := .startup causes (!t.cs.checkOk) }] } }
        ∧ (s.cs.writing = none → t.cs = s.cs)
        ∧ (∀ n, s.cs.writing = some n → t.cs.checkOk = false ∧ t.cs.writing = none)
    (∃ t, exec .powerOn s = .next t ∧ after { powerOn := true, pin := false, supplyLow := false, restart := false } t)
      ∧ (∃ t, exec .pin s = .next t ∧ after { s.ti.causes with pin := true } t)
      ∧ (∃ t, exec .supplyLow s = .next t ∧ after { s.ti.causes with supplyLow := true } t)

/-- Every step keeps the form and the capacities of the state: tables in canonical form with keys strictly rising, sets
of addresses strictly rising, sixteen zones and eight outputs, the transmit queue in arrival order, the notices by class
(R204); and no list passes its capacity: the ring 16 (R10), the transmit queue 24 (R21), the pending epochs 2 (R74), the orders 64 (R151), a hatch's list
48 (R184), the ingress 4 (R187), the replies 8 with a place kept for a directive in hand (R188), the notices 32 (R204). -/
def Obligations.EveryStepKeepsFormAndCapacity : Prop :=
  ∀ s t : State, s.wellFormed = true → s.withinCapacity = true → step s = .next t →
    t.wellFormed = true ∧ t.withinCapacity = true

/-- The state after reset has that form, no list passes its capacity, FIRE_ACTIVE is as R119 says, and the counts, the
conditions and the fault output are as R32, R34, R50 and R52 say. -/
def Obligations.ResetHasTheInvariants : Prop :=
  State.reset.wellFormed = true ∧ State.reset.withinCapacity = true ∧ State.reset.fireActiveTrue = true
    ∧ State.reset.computedStands = true

/-- After every step FIRE_ACTIVE holds exactly while some zone is COUNTDOWN, HELD or RELEASED (R119). -/
def Obligations.FireActiveFollowsTheZones : Prop :=
  ∀ s t : State, s.fireActiveTrue = true → step s = .next t → t.fireActiveTrue = true

/-- After every step the count of nodes in FAULT or SILENT (R32), the detector and healthy counts of every zone (R34), the
conditions of every zone (R50) and the fault output (R52) are what the records give. -/
def Obligations.CountsConditionsAndFaultOutputStand : Prop :=
  ∀ s t : State, s.wellFormed = true → s.computedStands = true → step s = .next t → t.computedStands = true

/-! ## The field loop -/

/-- A telegram damaged on the loop (byte timeout, length above 40, check mismatch) or of a wrong destination is
discarded without an acknowledge: the named node's line-error count rises by 1, saturating at 255, and nothing else
changes but the loop (R2, R3). A telegram whose check matches, to the part or to all, from a source that is no node's address
(0, 127, or above, the model's reading: log 26) is discarded as well, without an acknowledge and with no line-error count
changed (R3). A start byte seen while QUIET opens a reception (R1); bytes that follow a telegram
rejected for its length, with no gap above the byte timeout, are not taken for a start byte (R2). A start byte after the
part's answer finds the answer sent (the model's choice, log 4). -/
def Obligations.ReceptionsOpenAndAreDiscarded : Prop :=
    (∀ (s : State) (b : Byte), s.lif.loop = .receiving →
       let discarded (q : Nat) (tail : Bool) (t : State) : Prop :=
         t = { s with lif := { s.lif with loop := .quiet, quiet := q, tail := tail, answer := none }
                      nt := { s.nt with nodes := t.nt.nodes } }
           ∧ (∀ e, s.node b.toNat = some e →
               t.node b.toNat = some { e with lineErrors := min (e.lineErrors + 1) 255 })
           ∧ (∀ a, a ≠ b.toNat → t.node a = s.node a)
           ∧ (s.node b.toNat = none → t.nt = s.nt)
       (∃ t, exec (.byteTimeout (some b)) s = .next t ∧ discarded 2 false t)
         ∧ exec (.byteTimeout none) s
             = .next { s with lif := { s.lif with loop := .quiet, quiet := 2, tail := false, answer := none } }
         ∧ (∃ t, exec (.lengthAbove40 b) s = .next t ∧ discarded 0 true t)
         ∧ ∀ tel : Telegram, tel.src = b → tel.payload.length ≤ 40 →
             (telegramCheckMatches tel = false ∨ (tel.dest ≠ 0#8 ∧ tel.dest ≠ 127#8)) →
             ∃ t, exec (.telegramReceived tel) s = .next t ∧ discarded 0 false t)
  ∧ (∀ (s : State) (tel : Telegram), s.lif.loop = .receiving → tel.payload.length ≤ 40 → telegramCheckMatches tel = true →
       (tel.dest = 0#8 ∨ tel.dest = 127#8) → (tel.src = 0#8 ∨ 127 ≤ tel.src.toNat) →
       exec (.telegramReceived tel) s
         = .next { s with lif := { s.lif with loop := .quiet, quiet := 0, tail := false, answer := none } })
  ∧ (∀ (s : State) (q : Nat), s.lif.loop = .quiet →
       (s.lif.tail = false ∨ 2 < q →
         exec (.startByteReceived q) s
           = .next { s with lif := { s.lif with loop := .receiving, quiet := 0, tail := false } })
         ∧ (s.lif.tail = true → q ≤ 2 →
           exec (.startByteReceived q) s = .next { s with lif := { s.lif with quiet := 0 } }))
  ∧ (∀ (s : State) (q : Nat), s.lif.loop = .answering → s.lif.tail = false →
       exec (.startByteReceived q) s
         = .next { s with lif := { s.lif with loop := .receiving, quiet := 0, answer := none } })

/-- A valid telegram from a node with an entry whose sequence equals the last accepted one is acknowledged when it is
unicast, the loop ANSWERING, and discarded, and nothing changes but the loop (R5, R7). -/
def Obligations.DuplicateIsAcknowledgedAndDiscarded : Prop :=
  ∀ (s : State) (tel : Telegram) (e : NodeEntry), s.lif.loop = .receiving → tel.payload.length ≤ 40 →
    telegramCheckMatches tel = true → (tel.dest = 127#8 ∨ tel.dest = 0#8) → addressInRange tel.src.toNat = true →
    s.node tel.src.toNat = some e → e.lastSeq = some tel.seq →
    exec (.telegramReceived tel) s
      = .next { s with lif := { s.lif with
                  loop := (if tel.dest = 127#8 then .answering else .quiet), quiet := 0, tail := false,
                  answer := (if tel.dest = 127#8 then some .ack else none) } }

/-- A valid new telegram from a node with an entry is accepted while the ring holds fewer than 16 items: it stands at
the ring's tail, its sequence is the node's last accepted, and the node is OK with its interval restarted, but for a
detector's DET_TROUBLE, which stops the timer alone (R10, R28, R30); the congestion mark stands. Where the node was OK and
commands no lock or plant, nothing else changes but a RELAYED copy for a node with the relay flag (R36). A node that was not
OK posts NODE_STATE with reason RECOVERED (R32), shown for one that commands no lock or plant, whose telegrams are not
relayed, and whose zone is not in PRE_ALARM. A lock in LOCK_FAULT is sent its state again, whatever the kind, DET_TROUBLE
aside (R33, R57). -/
def Obligations.AcceptedTelegramJoinsTheRing : Prop :=
  ∀ (s : State) (tel : Telegram) (e : NodeEntry), s.lif.loop = .receiving → tel.payload.length ≤ 40 →
    telegramCheckMatches tel = true → (tel.dest = 127#8 ∨ tel.dest = 0#8) → addressInRange tel.src.toNat = true →
    s.node tel.src.toNat = some e → e.lastSeq ≠ some tel.seq → s.lif.ring.length < 16 →
    let a := tel.src.toNat
    let unicast := decide (tel.dest = 127#8)
    let ring := s.lif.ring ++ [{ src := a, kind := tel.kind, seq := tel.seq, payload := tel.payload, unicast := unicast,
                                 cls := e.cls }]
    let lif : Lif := { s.lif with
      ring := ring, loop := (if unicast then .answering else .quiet), quiet := 0, tail := false
      answer := (if unicast then some .ack else none) }
    ∃ t, exec (.telegramReceived tel) s = .next t
      ∧ t.lif.ring = ring ∧ t.lif.loop = lif.loop ∧ t.lif.answer = lif.answer ∧ t.lif.congested = s.lif.congested
      ∧ t.node a = some
          (if e.cls = .detector ∧ tel.kind = 0x12#8 then { e with lastSeq := some tel.seq, timer := none }
            else { e with lastSeq := some tel.seq, sup := .ok, timer := intervalTimer e.interval })
      ∧ (∀ b, b ≠ a → t.node b = s.node b) ∧ t.zt = s.zt ∧ t.cu = s.cu ∧ t.cs = s.cs
      ∧ (e.sup = .ok → e.cls ≠ .lock → e.cls ≠ .dehumidifier → e.cls ≠ .humidifier →
          let heard : State := { s with lif := lif, nt := { s.nt with nodes := t.nt.nodes } }
          (e.relay = false → t = heard)
            ∧ (e.relay = true → t = heard.post (.relayed a tel.kind tel.seq unicast tel.payload)))
      ∧ (e.sup ≠ .ok → e.relay = false → e.cls ≠ .lock → e.cls ≠ .dehumidifier → e.cls ≠ .humidifier →
          (e.cls = .detector → tel.kind ≠ 0x12#8 ∧ (s.fire e.zone).state ≠ .preAlarm) →
          t.ti = (s.post (.nodeState a e.cls e.zone .ok .recovered)).ti)
      ∧ (∀ l, e.sup = .ok → e.cls = .lock → s.lock a = some l → l.fault = true → l.send = .idle → s.lif.txq.length < 24 →
          t.lock a = some (if tel.kind = 0x12#8 then l else { l with sent := l.commanded, send := .inFlight }))

/-- A valid new telegram that meets a full ring: a unicast one is answered BUSY and dropped, and the first BUSY sets the
congestion mark and posts INGRESS_CONGESTED (R11, R12); a broadcast one is dropped without a mark or a notice (R6). -/
def Obligations.FullRingAnswersBusy : Prop :=
  ∀ (s : State) (tel : Telegram) (e : NodeEntry), s.lif.loop = .receiving → tel.payload.length ≤ 40 →
    telegramCheckMatches tel = true → addressInRange tel.src.toNat = true → s.node tel.src.toNat = some e →
    e.lastSeq ≠ some tel.seq → 16 ≤ s.lif.ring.length →
    let left (a : Option Answer) (mark : Bool) : State :=
      { s with lif := { s.lif with
          loop := (if a.isSome then .answering else .quiet), quiet := 0, tail := false, answer := a, congested := mark } }
    (tel.dest = 127#8 → s.lif.congested = true → exec (.telegramReceived tel) s = .next (left (some .busy) true))
      ∧ (tel.dest = 127#8 → s.lif.congested = false →
          exec (.telegramReceived tel) s = .next ((left (some .busy) true).post .ingressCongested))
      ∧ (tel.dest = 0#8 → exec (.telegramReceived tel) s = .next (left none s.lif.congested))

/-- A valid telegram from an address without an entry is acknowledged when it is unicast and discarded; the address is
told to the station once, until its mark is cleared (R4, R35). -/
def Obligations.UnknownSourceIsReportedOnce : Prop :=
  ∀ (s : State) (tel : Telegram), s.lif.loop = .receiving → tel.payload.length ≤ 40 →
    telegramCheckMatches tel = true → (tel.dest = 127#8 ∨ tel.dest = 0#8) → addressInRange tel.src.toNat = true →
    s.node tel.src.toNat = none →
    let quiet : State := { s with lif := { s.lif with
      loop := (if tel.dest = 127#8 then .answering else .quiet), quiet := 0, tail := false
      answer := (if tel.dest = 127#8 then some .ack else none) } }
    (tel.src.toNat ∈ s.nt.unknownMarks → exec (.telegramReceived tel) s = .next quiet)
      ∧ (tel.src.toNat ∉ s.nt.unknownMarks →
          exec (.telegramReceived tel) s
            = .next (({ quiet with nt := { s.nt with unknownMarks := setInsert s.nt.unknownMarks tel.src.toNat } }).post
                (.unknownSource tel.src.toNat tel.kind)))

/-- The part starts the oldest READY item of the highest class once the quiet time reaches the class's gap; the item
gets the counter's sequence at its first start and keeps it afterwards (R7, R17). -/
def Obligations.TransmitStartTakesTheOldestOfTheHighestClass : Prop :=
  ∀ (s : State) (q : Nat) (pre post : List TxItem) (it : TxItem), s.lif.loop = .quiet →
    s.lif.txq = pre ++ it :: post → it.state = .ready →
    (∀ x ∈ pre, x.state = .ready → x.cls.rank < it.cls.rank) →
    (∀ x ∈ post, x.state = .ready → x.cls.rank ≤ it.cls.rank) →
    (∀ x ∈ pre ++ post, x.arrival ≠ it.arrival) → (if it.cls = .fire then 4 else 10) ≤ q →
    exec (.transmitStart q) s
      = .next { s with lif := { s.lif with
                  loop := .sending, quiet := 0, tail := false
                  txq := pre ++ { it with state := .onLoop, seq := some (it.seq.getD s.lif.txSeq) } :: post
                  txSeq := (if it.seq.isSome then s.lif.txSeq else s.lif.txSeq + 1#8) } }

/-- A lost start gives the loop to the other party, a broken attempt ends it: the item is READY again with its arrival
order, its retries and its sequence as they were (R8). A unicast sent waits for its slot (R7). -/
def Obligations.AttemptsThatDoNotCount : Prop :=
  ∀ (s : State) (pre post : List TxItem) (it : TxItem), s.lif.loop = .sending → s.carries pre it post →
    (exec .lostStart s
        = .next { s with lif := { s.lif with loop := .receiving, txq := pre ++ { it with state := .ready } :: post } })
      ∧ (exec .brokenAttempt s
          = .next { s with lif := { s.lif with loop := .quiet, quiet := 0, tail := false,
                                               txq := pre ++ { it with state := .ready } :: post } })
      ∧ (it.dest ≠ 0 → exec .unicastSent s = .next { s with lif := { s.lif with loop := .awaiting } })

/-- A BUSY with fewer than 5 BUSY retries used, and an empty slot or another byte with fewer than 2 empty-slot retries
used, keep the item: it waits 200 ms, or is READY at once, its arrival order and its other retries kept (R18). The end
of a BUSY retry delay makes the waiting item READY, its place kept (R18); a delay that has not run out does not end. -/
def Obligations.RetriesKeepTheItemInItsPlace : Prop :=
    (∀ (s : State) (pre post : List TxItem) (it : TxItem) (b : Byte), s.lif.loop = .awaiting → s.carries pre it post →
       let left (q : Nat) (i : TxItem) : State :=
         { s with lif := { s.lif with loop := .quiet, quiet := q, tail := false, txq := pre ++ i :: post } }
       (it.busyRetries < 5 → exec (.acknowledgeSlotAnswer 0xB4#8) s
           = .next (left 0 { it with busyRetries := it.busyRetries + 1, state := .waiting 20 }))
         ∧ (it.emptyRetries < 2 → b ≠ 0x4B#8 → b ≠ 0xB4#8 → exec (.acknowledgeSlotAnswer b) s
             = .next (left 0 { it with emptyRetries := it.emptyRetries + 1, state := .ready }))
         ∧ (it.emptyRetries < 2 → exec .acknowledgeSlotExpiry s
             = .next (left 2 { it with emptyRetries := it.emptyRetries + 1, state := .ready })))
  ∧ (∀ (s : State) (pre post : List TxItem) (it : TxItem), s.lif.txq = pre ++ it :: post →
       (∀ x ∈ pre ++ post, x.arrival ≠ it.arrival) →
       (it.state = .waiting 0 → exec (.busyRetryDelayExpiry it.arrival) s
           = .next { s with lif := { s.lif with txq := pre ++ { it with state := .ready } :: post } })
         ∧ (it.state ≠ .waiting 0 → exec (.busyRetryDelayExpiry it.arrival) s = .next s))

/-- With nothing pending, an item answered ACK, or refused a sixth time, leaves the queue and its place stays free; a
RESULT's outcome moves nothing else (R18, R20, R22, R163). A broadcast leaves DELIVERED when it has been sent (R19). A
third empty slot makes the destination SILENT with its timer stopped, posts NODE_STATE with reason NO_ANSWER where it was
not SILENT, and takes the item from the queue (R18, R31, R32). The item's originator is handed DELIVERED, REFUSED_BY_NODE or NO_ANSWER (R20): LA clears or sets LOCK_FAULT and sends a newer
commanded state (R57); FZ clears release-unconfirmed or tells the station (R110); OL shows the pick, withdraws it, or tells
the station (R155); TI answers the PASS_DOWN (R40). -/
def Obligations.EndedItemsLeaveTheQueue : Prop :=
    (∀ (s : State) (pre post : List TxItem) (it : TxItem) (h : Hatch), s.carries pre it post → s.nothingPending →
       let left : State := { s with lif := { s.lif with loop := .quiet, quiet := 0, tail := false, txq := pre ++ post } }
       (s.lif.loop = .awaiting → it.origin = .result h → exec (.acknowledgeSlotAnswer 0x4B#8) s = .next left)
         ∧ (s.lif.loop = .awaiting → it.origin = .result h → 5 ≤ it.busyRetries →
             exec (.acknowledgeSlotAnswer 0xB4#8) s = .next left)
         ∧ (s.lif.loop = .sending → it.dest = 0 → it.origin = .alert → exec .broadcastSent s = .next left))
  ∧ (∀ (s : State) (pre post : List TxItem) (it : TxItem) (e : NodeEntry), s.lif.loop = .awaiting → s.carries pre it post →
       s.arrivalsRising = true → 2 ≤ it.emptyRetries → s.node it.dest = some e → s.nothingPending →
       ∃ t, exec .acknowledgeSlotExpiry s = .next t ∧ t.lif.loop = .quiet
         ∧ t.node it.dest = some (if e.sup = .silent then e else { e with sup := .silent, timer := none })
         ∧ (∀ a, a ≠ it.dest → t.node a = s.node a) ∧ t.zt = s.zt ∧ t.cu = s.cu ∧ t.cs = s.cs
         ∧ (∀ x ∈ t.lif.txq, x.arrival ≠ it.arrival)
         ∧ (∀ h, it.origin = .result h → e.sup ≠ .silent → (e.cls = .detector → (s.fire e.zone).state ≠ .preAlarm) →
             t.ti = (s.post (.nodeState it.dest e.cls e.zone .silent .noAnswer)).ti))
  ∧ (∀ (s : State) (pre post : List TxItem) (it : TxItem), s.lif.loop = .awaiting → s.carries pre it post →
       s.nothingPending →
       let left (q : Nat) : State :=
         { s with lif := { s.lif with loop := .quiet, quiet := q, tail := false, txq := pre ++ post } }
       exec (.acknowledgeSlotAnswer 0x4B#8) s = .next ((left 0).handOutcome it.origin it.dest .delivered)
         ∧ (5 ≤ it.busyRetries →
             exec (.acknowledgeSlotAnswer 0xB4#8) s = .next ((left 0).handOutcome it.origin it.dest .refusedByNode))
         ∧ (2 ≤ it.emptyRetries → (∀ e, s.node it.dest = some e → e.sup = .silent) →
             exec .acknowledgeSlotExpiry s = .next ((left 2).handOutcome it.origin it.dest .noAnswer)))
  ∧ (∀ (s : State) (a : Nat) (l : Lock) (o : TxOutcome), s.lock a = some l →
       let after := s.handOutcome (.lockSet a true) a o
       let why : LockFaultReason := if o = .refusedByNode then .refused else .noAnswer
       let failed := s.setLock a { l with fault := true, send := .idle }
       (o = .delivered → l.commanded = l.sent → l.fault = false → after = s.setLock a { l with send := .idle })
         ∧ (o = .delivered → l.commanded = l.sent → l.fault = true →
             after = (s.setLock a { l with fault := false, send := .idle }).post (.lockFault a l.commanded l.claims .cleared))
         ∧ (o = .delivered → l.commanded ≠ l.sent → s.lif.txq.length < 24 →
             after.lock a = some { l with fault := false, sent := l.commanded, send := .inFlight }
               ∧ after.lif = (s.placeTx { cls := .lock, dest := a, kind := 0x90#8, payload := lockSetPayload l.commanded,
                                          origin := .lockSet a true }).lif)
         ∧ (o = .refusedByNode ∨ o = .noAnswer →
             after = if l.fault then failed else failed.post (.lockFault a l.commanded l.claims why))
         ∧ (o = .dropped → after = s.setLock a { l with send := .pending })
         ∧ s.handOutcome (.lockSet a false) a o = s)
  ∧ (∀ (s : State) (z a : Nat) (o : TxOutcome),
       s.handOutcome (.release z true) a .delivered = s.setFire z { s.fire z with unconfirmed := false }
         ∧ (o = .refusedByNode ∨ o = .noAnswer → s.handOutcome (.release z true) a o = s.post (.releaseUnconfirmed z a o))
         ∧ s.handOutcome (.release z false) a o = s)
  ∧ (∀ (s : State) (n a : Nat) (r : Order) (c : Cartridge) (o : TxOutcome), s.order n = some r →
       s.cartridge r.index = some c →
       let withdraw : TxRequest :=
         { cls := .display, dest := a, kind := 0xA1#8, payload := leBytes 2 n, origin := .pickWithdraw }
       (r.state = .released → s.handOutcome (.pick n false) a .delivered = s.setOrder { r with pick := .shown a })
         ∧ (r.state ≠ .released → s.lif.txq.length < 24 →
             s.handOutcome (.pick n false) a .delivered = (s.setOrder { r with pick := .notSent }).placeTx withdraw)
         ∧ (r.state = .released → o = .refusedByNode ∨ o = .noAnswer →
             s.handOutcome (.pick n false) a o
               = (s.setOrder { r with pick := .undelivered }).post (.pickUndelivered n c.label a o))
         ∧ (r.state ≠ .released → o = .refusedByNode ∨ o = .noAnswer →
             s.handOutcome (.pick n false) a o = s.setOrder { r with pick := .notSent })
         ∧ (s.lif.txq.length < 24 → s.handOutcome (.pick n true) a .delivered = s.placeTx withdraw)
         ∧ (o = .refusedByNode ∨ o = .noAnswer → s.handOutcome (.pick n true) a o = s))
  ∧ (∀ (s : State) (d : Directive) (a : Nat) (o : TxOutcome), s.ti.inHand = some (.passDown d) →
       s.handOutcome .passDown a o = ({ s with ti := { s.ti with inHand := none } }).conclude d .ok (.outcome o))

/-- A freed place goes first to the pending ALERT, which carries FIRE_ACTIVE as it stands, else to the pending RELEASE of the
lowest-numbered zone that holds one, to its suppression node as it stands, and without pending fire telegrams to the pending
lock of the lowest address, which is sent its commanded state (R22, R111, R120). A request
finds a free place, or takes that of the newest item of the lowest class below its own that is not on the loop, or is
itself refused; a DISPLAY telegram at a full queue is always refused (R16, R21). -/
def Obligations.QueuePlacesAreGivenByClass : Prop :=
    (∀ (s : State) (pre post : List TxItem) (it : TxItem) (h : Hatch), s.lif.loop = .awaiting → s.carries pre it post →
       it.origin = .result h →
       let left : State := { s with lif := { s.lif with loop := .quiet, quiet := 0, tail := false, txq := pre ++ post } }
       (s.fz.pendingAlert = true →
         exec (.acknowledgeSlotAnswer 0x4B#8) s
           = .next (({ left with fz := { s.fz with pendingAlert := false } }).placeTx
               { cls := .fire, dest := 0, kind := 0x81#8, payload := [if s.fz.fireActive then 0x01#8 else 0x00#8],
                 origin := .alert }))
         ∧ (∀ z a, s.fz.pendingAlert = false → z < 16 → (s.fire z).pendingRelease = true →
             (∀ y < z, (s.fire y).pendingRelease = false) → s.suppressionNode z = some a →
             exec (.acknowledgeSlotAnswer 0x4B#8) s
               = .next ((left.setFire z { s.fire z with pendingRelease := false }).placeTx
                   { cls := .fire, dest := a, kind := 0x80#8, payload := [BitVec.ofNat 8 z], origin := .release z true }))
         ∧ (∀ a l lower higher, s.fz.pendingAlert = false → (∀ z < 16, (s.fire z).pendingRelease = false) →
             s.la.locks = lower ++ (a, l) :: higher → (∀ p ∈ lower, p.2.send ≠ .pending ∧ p.1 ≠ a) → l.send = .pending →
             ∃ t, exec (.acknowledgeSlotAnswer 0x4B#8) s = .next t
               ∧ t.lif.txq = pre ++ post ++ [{ cls := .lock, dest := a, kind := 0x90#8, payload := lockSetPayload l.commanded,
                                               origin := .lockSet a true, seq := none, busyRetries := 0, emptyRetries := 0,
                                               state := .ready, arrival := s.lif.txArrivals }]
               ∧ t.lock a = some { l with sent := l.commanded, send := .inFlight }))
  ∧ (∀ (s : State) (r : TxRequest),
       let item : TxItem := { cls := r.cls, dest := r.dest, kind := r.kind, payload := r.payload, origin := r.origin,
                              seq := none, busyRetries := 0, emptyRetries := 0, state := .ready,
                              arrival := s.lif.txArrivals }
       (s.lif.txq.length < 24 →
         s.requestTx r = { s with lif := { s.lif with txq := s.lif.txq ++ [item], txArrivals := s.lif.txArrivals + 1 } })
         ∧ (24 ≤ s.lif.txq.length → r.cls = .display → s.requestTx r = s.dropped r.origin)
         ∧ (∀ pre v post, 24 ≤ s.lif.txq.length → s.lif.txq = pre ++ v :: post → v.state ≠ .onLoop →
             v.cls.rank < r.cls.rank → (∀ x ∈ post, x.state ≠ .onLoop → v.cls.rank < x.cls.rank) →
             (∀ x ∈ pre, x.state ≠ .onLoop → v.cls.rank ≤ x.cls.rank) → (∀ x ∈ pre ++ post, x.arrival ≠ v.arrival) →
             (s.requestTx r).lif.txq = pre ++ post ++ [item]))

/-! ## The ingress ring -/

/-- An item that no owner takes leaves the ring and is discarded; the congestion mark clears where 8 items or fewer
remain and stands otherwise (R12, R13). A head for CAT stays while CAT is busy, and the whole ring with it (R14). -/
def Obligations.RingHeadsLeaveInOrder : Prop :=
  ∀ (s : State) (it : RingItem) (rest : List RingItem), s.lif.ring = it :: rest →
    (dispatches it.cls it.kind = false ∨ s.node it.src = none →
      exec .undispatchedItem s
        = .next { s with lif := { s.lif with ring := rest, congested := (if rest.length ≤ 8 then false else s.lif.congested) } })
      ∧ (s.catBusy = true → exec .slotEvent s = .next s)

/-! ## Nodes -/

/-- An interval timer's expiry: OK becomes SUSPECT with the timer restarted, SUSPECT becomes FAULT with it stopped, and
no other node changes (R29). NODE_STATE is posted with reason MISSED or LOST (R32): it is the one notice where no fire
follows, the node being no detector or its zone not in PRE_ALARM, and else the first. A timer that an
acceptance has restarted, or that else has not run out, does not expire (R29). -/
def Obligations.IntervalExpiryStepsTheSupervision : Prop :=
  ∀ (s : State) (a : Nat) (e : NodeEntry), s.node a = some e →
    let told (sup : Supervision) (why : NodeReason) (t : State) : Prop :=
      let noted := s.post (.nodeState a e.cls e.zone sup why)
      (e.cls ≠ .detector ∨ (s.fire e.zone).state ≠ .preAlarm → t.ti = noted.ti)
        ∧ ∃ u : State, u.ti = noted.ti ∧ (t = u ∨ t = u.confirmFire e.zone .healthyCount none)
    (e.timer = some 0 → e.sup = .ok → ∃ t, exec (.intervalTimerExpiry a) s = .next t
        ∧ t.node a = some { e with sup := .suspect, timer := intervalTimer e.interval }
        ∧ (∀ b, b ≠ a → t.node b = s.node b) ∧ t.zt = s.zt ∧ t.cu = s.cu ∧ t.cs = s.cs
        ∧ told .suspect .missed t)
      ∧ (e.timer = some 0 → e.sup = .suspect → ∃ t, exec (.intervalTimerExpiry a) s = .next t
          ∧ t.node a = some { e with sup := .fault, timer := none } ∧ (∀ b, b ≠ a → t.node b = s.node b)
          ∧ t.zt = s.zt ∧ t.cu = s.cu ∧ t.cs = s.cs ∧ told .fault .lost t)
      ∧ (e.timer ≠ some 0 → exec (.intervalTimerExpiry a) s = .next s)

/-- A DET_TROUBLE makes the detector FAULT where no newer telegram has been accepted from it, with NODE_STATE of reason
TROUBLE (R32; the one notice where the zone is not in PRE_ALARM), and changes nothing where one has, where the detector is
in FAULT already or where the node's entry is of another class by then (R30). A STATUS of one byte becomes the node's reported
condition (R37); of another length it changes nothing (R206). -/
def Obligations.TroubleAndStatusAreNoted : Prop :=
    (∀ (s : State) (it : RingItem) (e : NodeEntry), s.offers it 0x12#8 e → e.cls = .detector →
       (e.lastSeq = some it.seq → e.sup ≠ .fault → ∃ t, exec .detTrouble s = .next t
           ∧ t.node it.src = some { e with sup := .fault, timer := none } ∧ (∀ b, b ≠ it.src → t.node b = s.node b)
           ∧ t.zt = s.zt ∧ t.cu = s.cu ∧ t.cs = s.cs
           ∧ ((s.fire e.zone).state ≠ .preAlarm →
               t.ti = (s.post (.nodeState it.src .detector e.zone .fault .trouble)).ti))
         ∧ (e.lastSeq ≠ some it.seq ∨ e.sup = .fault → exec .detTrouble s = .next s.popRing))
  ∧ (∀ (s : State) (it : RingItem) (e : NodeEntry), s.offers it 0x12#8 e → e.cls ≠ .detector →
       exec .detTrouble s = .next s.popRing)
  ∧ (∀ (s : State) (it : RingItem) (e : NodeEntry), s.offers it 0x01#8 e →
       (∀ b, it.payload = [b] → exec .status s = .next (s.popRing.setNode it.src { e with condition := some b }))
         ∧ (it.payload.length ≠ 1 → exec .status s = .next s.popRing))

/-! ## Lines -/

/-- The settle timer runs while the raw level differs from the settled level: a change away starts it with the settle
time, a change back stops it, and a line without an entry starts nothing (R48, R49). A line's settle timer expires:
its settled level takes the raw level and the timer stops (R49). An UNUSED line's edge changes nothing beside the
line; an ABORT line's that makes the abort condition of a zone in COUNTDOWN active takes the zone to HELD with its
remaining count kept (R50, R107). A PANEL_ALARM or MANUAL_RELEASE line's that makes the condition of a zone in NORMAL or
PRE_ALARM active confirms the fire, and in another state changes none (R102, R103); the discharge-check line's that makes
the discharge condition of a CONFIRMED zone with RELEASE_FAULT active clears it and loads the countdown (R105). A timer
that has not run out does not expire. -/
def Obligations.SettleTimersMakeTheEdges : Prop :=
    (∀ (s : State) (n : Nat) (v : Level), s.lu.raw[n]? = some v →
       let other : Level := match v with
         | .low => .high
         | .high => .low
       let moved : State := { s with lu := { s.lu with raw := s.lu.raw.set n other } }
       (Table.get s.lu.lines n = none → exec (.rawLevelChange n other) s = .next moved)
         ∧ (∀ l, Table.get s.lu.lines n = some l →
             exec (.rawLevelChange n other) s
               = .next { moved with lu := { moved.lu with
                   lines := Table.put s.lu.lines n
                     { l with timer := (if l.settled = other then none else some l.settle) } } }))
  ∧ (∀ (s : State) (n : Nat) (l : LineEntry), Table.get s.lu.lines n = some l → l.timer ≠ some 0 →
       exec (.settleTimerExpiry n) s = .next s)
  ∧ (∀ (s : State) (n : Nat) (l : LineEntry) (e : ZoneEntry), s.shaped = true → Table.get s.lu.lines n = some l →
       l.timer = some 0 → s.zone l.zone = some e → l.zone < 16 → s.conditions l.zone = s.computeConditions l.zone →
       let v := s.lu.raw.getD n l.settled
       (∃ t, exec (.settleTimerExpiry n) s = .next t
           ∧ t.lu.lines = Table.put s.lu.lines n { l with settled := v, timer := none } ∧ t.lu.raw = s.lu.raw)
         ∧ (l.function = .unused → ∃ t, exec (.settleTimerExpiry n) s = .next t
           ∧ t.lu.lines = Table.put s.lu.lines n { l with settled := v, timer := none } ∧ t = { s with lu := t.lu })
         ∧ (l.function = .abort → n < 16 → v = l.active → (s.conditions l.zone).abort = false →
             (s.fire l.zone).state = .countdown → ∃ t, exec (.settleTimerExpiry n) s = .next t
               ∧ t.lu.lines = Table.put s.lu.lines n { l with settled := v, timer := none }
               ∧ (t.conditions l.zone).abort = true ∧ (t.fire l.zone).state = .held
               ∧ (t.fire l.zone).remaining = (s.fire l.zone).remaining
               ∧ (∀ y, y ≠ l.zone → (t.fire y).state = (s.fire y).state) ∧ t.nt = s.nt ∧ t.zt = s.zt ∧ t.cu = s.cu
               ∧ t.cs = s.cs)
         ∧ ((l.function = .panelAlarm ∧ (s.conditions l.zone).panel = false)
               ∨ (l.function = .manualRelease ∧ (s.conditions l.zone).manual = false) →
             n < 16 → v = l.active → e.fire.line = none → ∃ t, exec (.settleTimerExpiry n) s = .next t
               ∧ (t.fire l.zone).state = (match (s.fire l.zone).state with
                   | .normal => .confirmed
                   | .preAlarm => .confirmed
                   | .confirmed => .confirmed
                   | .countdown => .countdown
                   | .held => .held
                   | .released => .released
                   | .isolated => .isolated)
               ∧ (∀ y, y ≠ l.zone → (t.fire y).state = (s.fire y).state) ∧ t.nt = s.nt ∧ t.zt = s.zt ∧ t.cu = s.cu
               ∧ t.cs = s.cs)
         ∧ (l.function = .dischargeOk → e.fire.checkLine = some n → n < 16 → v = l.active →
             (s.conditions l.zone).discharge = false → (s.conditions l.zone).abort = false →
             (s.fire l.zone).state = .confirmed → (s.fire l.zone).releaseFault = true →
             ∃ t, exec (.settleTimerExpiry n) s = .next t ∧ (t.fire l.zone).state = .countdown
               ∧ (t.fire l.zone).remaining = some (10 * e.fire.delay) ∧ (t.fire l.zone).releaseFault = false
               ∧ (∀ y, y ≠ l.zone → (t.fire y).state = (s.fire y).state) ∧ t.nt = s.nt ∧ t.zt = s.zt ∧ t.cu = s.cu
               ∧ t.cs = s.cs))

/-! ## Climate -/

/-- A taken SAMPLE: the clamped readings seed the filters of an UNSET or STALE zone and step them otherwise, the status
is judged, the stale timer restarts and the demand is decided (R62 to R68, R70, R71), from NONE at the first sample after
a load that took the zone from MANUAL to AUTO (R71); the probe's RANGE mark is set where a reading was clamped (R62).
A SAMPLE is discarded where the node's entry is no PROBE any more, where it is not 4 bytes, and where its zone has no
climate group (R61). -/
def Obligations.SampleStepsTheClimate : Prop :=
  (∀ (s : State) (it : RingItem) (e : NodeEntry), s.offers it 0x02#8 e →
    (e.cls ≠ .probe ∨ it.payload.length ≠ 4 ∨ ∀ ze, s.zone e.zone = some ze → ze.climate = none) →
    exec .sample s = .next s.popRing)
  ∧ ∀ (s : State) (it : RingItem) (e : NodeEntry) (g : ClimateGroup) (rh t : Int), s.shaped = true →
    s.offers it 0x02#8 e → e.cls = .probe → e.zone < 16 → s.climateGroup e.zone = some g →
    parseSample it.payload = some (rh, t) →
    let c := s.climate e.zone
    let seed := c.status = .unset ∨ c.status = .stale
    let rh' := max 0 (min 1000 rh)
    let t' := max (-400) (min 850 t)
    let acc := if seed then 16 * rh' else c.acc + Int.tdiv ((16 * rh' - c.acc) * g.k) 16
    let accT := if seed then 16 * t' else c.accT + Int.tdiv ((16 * t' - c.accT) * g.k) 16
    let f := Int.fdiv (acc + 8) 16
    ∃ u, exec .sample s = .next u
      ∧ u.climate e.zone
          = { acc := acc, accT := accT, fRH := some f, fT := some (Int.fdiv (accT + 8) 16)
              status := (if f < g.lo then .low else if f ≤ g.hi then .inBand else .high)
              stale := some (100 * g.stale)
              demand := (match g.mode with
                | .manual => .none
                | .auto => match (if c.fromNone then Demand.none else c.demand) with
                  | .none => if (g.target : Int) + g.deadBand < f then .dry
                      else if f < (g.target : Int) - g.deadBand then .wet else .none
                  | .dry => if f ≤ g.target then .none else .dry
                  | .wet => if (g.target : Int) ≤ f then .none else .wet)
              fromNone := false }
      ∧ (∀ z, z ≠ e.zone → u.climate z = s.climate z)
      ∧ u.node it.src = some (if rh' = rh ∧ t' = t then e else { e with rangeMark := true })
      ∧ (∀ a, a ≠ it.src → u.node a = s.node a) ∧ u.zt = s.zt ∧ u.lu = s.lu ∧ u.cat = s.cat ∧ u.pt = s.pt ∧ u.cs = s.cs

/-- After each seeding or step the reported values are (acc + 8) / 16 and (accT + 8) / 16 rounded toward minus infinity,
and the accumulators and reported values stay in their ranges, for every filter factor of 1 to 16 (R66). -/
def Obligations.FilterStaysInRange : Prop :=
  ∀ (c : Climate) (g : ClimateGroup) (rh t : Int), 1 ≤ g.k → g.k ≤ 16 → 0 ≤ c.acc → c.acc ≤ 16000 →
    -6400 ≤ c.accT → c.accT ≤ 13600 →
    let d := c.sampled g rh t
    d.fRH = some (Int.fdiv (d.acc + 8) 16) ∧ d.fT = some (Int.fdiv (d.accT + 8) 16)
      ∧ 0 ≤ d.acc ∧ d.acc ≤ 16000 ∧ -6400 ≤ d.accT ∧ d.accT ≤ 13600
      ∧ (∃ f, d.fRH = some f ∧ 0 ≤ f ∧ f ≤ 1000) ∧ ∃ f, d.fT = some f ∧ -400 ≤ f ∧ f ≤ 850

/-- An epoch that expires while CAT is busy is held, or merged into the second that waits with sums saturating at
1000; the epoch timer restarts at once (R72, R74). With CAT ready none is held (R73), and CAT works the epoch over every
record in four steps: exposure (R135), INSPECT at the threshold (R136), the acclimatization count of a STAGING cartridge
(R137), the overdue mark (R138). The figures are the excess over the band and the status of each zone (R72). The stale
timer's expiry makes the zone STALE with demand NONE and the timer stopped, its filtered values kept (R59, R68). A timer
that has not run out does not expire. -/
def Obligations.EpochsAreHeldAndZonesGoStale : Prop :=
    (∀ s : State, s.cu.epochTimer ≠ 0 → exec .minuteEpoch s = .next s)
  ∧ (∀ s : State, s.cu.epochTimer = 0 →
       let e := s.formEpoch
       ∃ t, exec .minuteEpoch s = .next t ∧ t.cu.epochTimer = 6000 ∧ t.cu.climate = s.cu.climate
         ∧ t.nt = s.nt ∧ t.zt = s.zt ∧ t.lu = s.lu ∧ t.pt = s.pt ∧ t.cs = s.cs
         ∧ (s.catBusy = false → t.cu.epochs = s.cu.epochs)
         ∧ (s.catBusy = true →
             t.cu.epochs = (match s.cu.epochs with
               | [] => [e]
               | [a] => [a, e]
               | a :: b :: _ => [a, List.zipWith (fun o n => { excess := min (o.excess + n.excess) 1000, status := n.status })
                   b e])
             ∧ t.cat = s.cat))
  ∧ (∀ (s : State) (z : Nat), (s.climate z).stale ≠ some 0 → exec (.staleTimerExpiry z) s = .next s)
  ∧ (∀ (s : State) (z : Nat), s.shaped = true → z < 16 → (s.climate z).stale = some 0 →
       ∃ t, exec (.staleTimerExpiry z) s = .next t
         ∧ t.climate z = { s.climate z with status := .stale, stale := none, demand := .none }
         ∧ (∀ y, y ≠ z → t.climate y = s.climate y) ∧ t.nt = s.nt ∧ t.zt = s.zt ∧ t.lu = s.lu ∧ t.cat = s.cat ∧ t.pt = s.pt
         ∧ t.cs = s.cs)
  ∧ (∀ (s : State) (z : Nat), z < 16 →
       let c := s.climate z
       s.formEpoch[z]? = some {
         status := c.status
         excess := (match s.climateGroup z, c.fRH with
           | some g, some f =>
             if c.status = .high then (f - g.hi).toNat else if c.status = .low then ((g.lo : Int) - f).toNat else 0
           | _, _ => 0) })
  ∧ (∀ (s : State) (i : Nat) (c : Cartridge), s.cu.epochTimer = 0 → s.catBusy = false → Table.wf s.cat.cartridges = true →
       s.cartridge i = some c →
       let figures (z : Nat) : EpochZone := s.formEpoch.getD z { excess := 0, status := .unset }
       let sums := c.state = .shelved ∨ c.state = .ordered ∨ c.state = .picked ∨ c.state = .staging ∨ c.state = .ready
       let c1 : Cartridge := match s.currentZone c with
         | some z => if sums then { c with exposure := min (c.exposure + (figures z).excess) 1000000 } else c
         | none => c
       let due := 0 < s.threshold ∧ c.inspect = false ∧ c.state ≠ .manifested ∧ s.threshold ≤ c1.exposure
       let c2 : Cartridge :=
         if due then
           (if c.order.isSome then
             { c1 with inspect := true, order := none, state := (if c.state = .ordered then .shelved else c.state) }
             else { c1 with inspect := true })
         else c1
       let counts := c.state = .staging ∧ ∃ z, c.staging = some z ∧ (figures z).status = .inBand ∧ (s.fire z).state = .normal
       let left := c.acclim.getD 0 - 1
       let late := (c.state = .away ∨ c.state = .inbound) ∧ c.overdue = false ∧ s.ti.clockSet = true
         ∧ ∃ due, c.dueBack = some due ∧ due ≤ s.ti.clock
       ∃ t, exec .minuteEpoch s = .next t
         ∧ (¬ counts → ¬ late → t.cartridge i = some c2)
         ∧ (counts → left = 0 → t.cartridge i = some { c2 with state := .ready, acclim := none })
         ∧ (counts → left ≠ 0 → t.cartridge i = some { c2 with acclim := some left })
         ∧ (late → t.cartridge i = some { c2 with overdue := true }))

/-- The acclimatization requirement: 2880 for a STALE or UNSET staging zone, else Amin plus the difference in tenths
times the rate over 10, rounded up, and never above 2880 (R76, R77). -/
def Obligations.AcclimatizationRequirement : Prop :=
  ∀ (s : State) (z : Nat) (tcase : Option Int) (ze : ZoneEntry) (g : StagingGroup) (f : Int), s.zone z = some ze →
    ze.staging = some g → ((s.climate z).status ≠ .unset → (s.climate z).fT = some f) →
    let d : Nat := match tcase with
      | some t => (max (-400) (min 850 t) - f).natAbs
      | none => 0
    s.acclimRequirement z tcase ≤ 2880
      ∧ ((s.climate z).status = .unset ∨ (s.climate z).status = .stale → s.acclimRequirement z tcase = 2880)
      ∧ ((s.climate z).status ≠ .unset → (s.climate z).status ≠ .stale →
          ∃ m, 10 * m < d * g.rate + 10 ∧ d * g.rate ≤ 10 * m ∧ s.acclimRequirement z tcase = min (g.amin + m) 2880)

/-! ## Plant -/

/-- A run timer's expiry: the unit runs on while its demand is present or the station decides (R85, R92), and is stopped
with an OFF queued when its demand is gone. A rest timer's expiry: OFF, and an ON queued where the demand is present
(R84, R86). A free place in the queue is assumed. A demand report starts a unit in OFF whose demand is present, stops one in
RUNNING whose run timer has elapsed and whose demand is gone, and repays an OFF owed (R83 to R85, R90). DELIVERED makes a
STARTING unit RUNNING with its minimum run, a STOPPING one REST with its minimum rest, and settles an OFF (R84 to R86, R90);
REFUSED_BY_NODE and NO_ANSWER make it FAILED with its notice (R88); DROPPED takes it back (R84, R85, R90). A FAILED unit
heard from is OFF, and in a fire SHUT with an OFF queued (R88). A shutdown makes every unit but a FAILED one SHUT, with an OFF
to one that was STARTING or RUNNING (R89), and a return to NORMAL gives SHUT its full rest (R91). A minimum run or rest of 0
ends at once (R84 to R86). A unit found detached at an attempt to queue is FAILED with reason DETACHED (R82, R88). Choices of
the model: a waiting ACT_SET is told apart by the purpose kept with it, a stale ON among them (log 11); the notice of reason
CLEARED carries no state before and no command (log 12).
A timer that has not run out does not expire. -/
def Obligations.PlantTimersFollowTheDemand : Prop :=
  (
  ∀ (s : State) (z : Nat) (r : Role) (a : Actuator), s.actuator z r = some a → s.lif.txq.length < 24 →
    let off : TxRequest := { cls := .actuator, dest := a.node, kind := 0x91#8, payload := [0x00#8],
                             origin := .actSet z a.role .stopOff true }
    let on : TxRequest := { cls := .actuator, dest := a.node, kind := 0x91#8, payload := [0x01#8],
                            origin := .actSet z a.role .startOn true }
    (a.run ≠ .running 0 → exec (.runTimerExpiry z r) s = .next s)
      ∧ (a.rest ≠ some 0 → exec (.restTimerExpiry z r) s = .next s)
      ∧ (a.run = .running 0 → (s.plantDecides z = false ∨ s.demandPresent z r = true) →
        exec (.runTimerExpiry z r) s = .next (s.setActuator z r { a with run := .elapsed }))
      ∧ (a.run = .running 0 → a.state = .running → s.plantDecides z = true → s.demandPresent z r = false →
          s.attached a = true →
          ∃ t, exec (.runTimerExpiry z r) s = .next t ∧ t = { s with pc := t.pc, lif := t.lif }
            ∧ t.actuator z r = some { a with run := .elapsed, state := .stopping } ∧ t.lif = (s.placeTx off).lif)
      ∧ (a.rest = some 0 → (s.plantDecides z = false ∨ s.demandPresent z r = false) →
          exec (.restTimerExpiry z r) s = .next (s.setActuator z r { a with state := .off, rest := none }))
      ∧ (a.rest = some 0 → s.plantDecides z = true → s.demandPresent z r = true → s.attached a = true →
          ∃ t, exec (.restTimerExpiry z r) s = .next t ∧ t = { s with pc := t.pc, lif := t.lif }
            ∧ t.actuator z r = some { a with state := .starting, run := .stopped, rest := none, owed := false }
            ∧ t.lif = (s.placeTx on).lif))
  ∧ (∀ (s : State) (z : Nat) (r : Role) (a : Actuator), s.actuator z r = some a → s.attached a = true →
      s.lif.txq.length < 24 →
      let sent (on : Bool) (p : ActPurpose) : TxRequest :=
        { cls := .actuator, dest := a.node, kind := 0x91#8, payload := [if on then 0x01#8 else 0x00#8],
          origin := .actSet z a.role p true }
      let did (u : State) (b : Actuator) (on : Bool) (p : ActPurpose) : Prop :=
        u = { s with pc := u.pc, lif := u.lif } ∧ u.actuator z r = some b ∧ u.lif = (s.placeTx (sent on p)).lif
      let decides := s.plantDecides z = true
      let wants := s.demandPresent z r = true
      let starts := decides ∧ a.state = .off ∧ wants
      let stops := decides ∧ a.state = .running ∧ a.run = .elapsed ∧ ¬ wants
      (starts → did (s.reportRecord z r) { a with state := .starting, run := .stopped, rest := none, owed := false } true
          .startOn)
        ∧ (stops → did (s.reportRecord z r) { a with state := .stopping } false .stopOff)
        ∧ (¬ starts → ¬ stops → a.owed = true → a.state = .off ∨ a.state = .rest ∨ a.state = .shut →
            did (s.reportRecord z r) { a with owed := false } false .off)
        ∧ (¬ starts → ¬ stops → a.owed = false → s.reportRecord z r = s)
        ∧ (s.actOutcome z r .staleOn true .delivered = s.placeTx (sent false .off))
        ∧ (∀ p o, s.actOutcome z r p false o = s))
  ∧ (∀ (s : State) (z : Nat) (r : Role) (a : Actuator) (g : ClimateGroup), s.actuator z r = some a →
      s.climateGroup z = some g →
      (0 < g.minRun → s.actOutcome z r .startOn true .delivered
          = s.setActuator z r { a with state := .running, run := .running (100 * g.minRun) })
        ∧ (0 < g.minRest → s.actOutcome z r .stopOff true .delivered
            = s.setActuator z r { a with state := .rest, run := .stopped, rest := some (100 * g.minRest) })
        ∧ (g.minRun = 0 → (s.plantDecides z = false ∨ s.demandPresent z r = true) →
            (s.actOutcome z r .startOn true .delivered).actuator z r = some { a with state := .running, run := .elapsed }
              ∧ (s.actOutcome z r .startOn true .delivered).lif = s.lif)
        ∧ (g.minRest = 0 → (s.plantDecides z = false ∨ s.demandPresent z r = false) →
            (s.actOutcome z r .stopOff true .delivered).actuator z r
                = some { a with state := .off, run := .stopped, rest := none }
              ∧ (s.actOutcome z r .stopOff true .delivered).lif = s.lif)
        ∧ s.actOutcome z r .off true .delivered = s.setActuator z r { a with owed := false }
        ∧ s.actOutcome z r .startOn true .dropped = s.setActuator z r { a with state := .off }
        ∧ s.actOutcome z r .stopOff true .dropped = s.setActuator z r { a with state := .running, run := .elapsed }
        ∧ s.actOutcome z r .off true .dropped = s.setActuator z r { a with owed := true }
        ∧ (∀ p o, o = .refusedByNode ∨ o = .noAnswer → p ≠ .staleOn → a.state ≠ .failed →
            (s.actOutcome z r p true o).actuator z r
                = some { a with state := .failed, run := .stopped, rest := none, owed := false }
              ∧ (s.actOutcome z r p true o).ti
                  = (s.post (.actuatorFailed z r a.node (some a.state) (some (p = .startOn))
                      (if o = .refusedByNode then .refused else .noAnswer))).ti)
        ∧ (∀ o, o = .refusedByNode ∨ o = .noAnswer → s.actOutcome z r .staleOn true o = s)
        ∧ (a.state = .shut → 0 < g.minRest →
            s.returnRecord z r = s.setActuator z r { a with state := .rest, run := .stopped, rest := some (100 * g.minRest) })
        ∧ (a.state ≠ .shut → s.returnRecord z r = s))
  ∧ (∀ (s : State) (z : Nat) (r : Role) (a : Actuator), s.actuator z r = some a → s.lif.txq.length < 24 →
      let shut : Actuator := { a with state := .shut, run := .stopped, rest := none }
      let detached (u : State) (before : ActState) (on : Bool) : Prop :=
        u.actuator z r = some { a with state := .failed, run := .stopped, rest := none, owed := false }
          ∧ u.ti = (s.post (.actuatorFailed z r a.node (some before) (some on) .detached)).ti
      (s.attached a = false →
          (a.state = .off → s.plantDecides z = true → s.demandPresent z r = true → detached (s.reportRecord z r) .off true)
            ∧ (a.state = .running → a.run = .elapsed → s.plantDecides z = true → s.demandPresent z r = false →
                detached (s.reportRecord z r) .running false)
            ∧ (a.state = .starting ∨ a.state = .running → detached (s.shutdownRecord z r) a.state false))
        ∧ (a.state = .failed ∨ a.state = .shut → s.shutdownRecord z r = s)
        ∧ (a.state = .off ∨ a.state = .stopping ∨ a.state = .rest → (s.shutdownRecord z r).actuator z r = some shut
            ∧ (s.shutdownRecord z r).lif.txq.length = s.lif.txq.length)
        ∧ (a.state = .starting ∨ a.state = .running → s.attached a = true →
            (s.shutdownRecord z r).actuator z r = some shut
              ∧ ((s.shutdownRecord z r).lif.txq.map (fun x => (x.dest, x.kind, x.payload)))
                = s.lif.txq.map (fun x => (x.dest, x.kind, x.payload)) ++ [(a.node, 0x91#8, [0x00#8])])
        ∧ (a.state = .failed → s.attached a = true →
            ((s.fire z).state.isShutdown = false →
                s.recoverRecord z r = (s.setActuator z r { a with state := .off, run := .stopped, rest := none }).post
                  (.actuatorFailed z r a.node none none .cleared))
              ∧ ((s.fire z).state.isShutdown = true → (s.recoverRecord z r).actuator z r = some shut
                ∧ ((s.recoverRecord z r).lif.txq.map (fun x => (x.dest, x.kind, x.payload)))
                  = s.lif.txq.map (fun x => (x.dest, x.kind, x.payload)) ++ [(a.node, 0x91#8, [0x00#8])])))

/-! ## Fire -/

/-- A first DET_ALARM in a NORMAL zone: PRE_ALARM with two or more healthy detectors, CONFIRMED with fewer (R97, R98).
In PRE_ALARM a second distinct detector confirms and a repeat changes no state (R99). In a later state and in ISOLATED
only the sets change. A zone without a release line stays CONFIRMED (R104). A DET_RESTORE takes the detector from the
alarm set of its zone and changes nothing else (R97). Both are discarded where the zone has no entry (R96) and where the
node's entry is no DETECTOR any more (R97). A fall of the healthy count
to 1 or 0 confirms a PRE_ALARM and changes nothing in another state (R100). Each change of state first posts a FIRE_STATE
notice with the zone, the states before and after, the cause, the detector of a DET_ALARM, SINGLE_KNOCK or DOUBLE_KNOCK, the
remaining count, the two flags and the sizes of the sets as the change leaves them, and is then handed on (R116, R117). -/
def Obligations.DetectorsMoveTheFireState : Prop :=
    (∀ (s : State) (it : RingItem) (e : NodeEntry) (ze : ZoneEntry), s.shaped = true → s.offers it 0x10#8 e →
       e.cls = .detector → e.zone < 16 → s.zone e.zone = some ze → ze.fire.line = none →
       let f := s.fire e.zone
       ∃ t, exec .detAlarm s = .next t
         ∧ (t.fire e.zone).alarm = setInsert f.alarm it.src
         ∧ (t.fire e.zone).knock = (if f.state = .isolated then f.knock else setInsert f.knock it.src)
         ∧ (t.fire e.zone).remaining = f.remaining ∧ (∀ y, y ≠ e.zone → (t.fire y).state = (s.fire y).state)
         ∧ t.nt = s.nt ∧ t.zt = s.zt ∧ t.cu = s.cu ∧ t.cs = s.cs
         ∧ (t.fire e.zone).state = (match f.state with
             | .normal => if 2 ≤ s.healthy e.zone then .preAlarm else .confirmed
             | .preAlarm => if it.src ∈ f.knock then .preAlarm else .confirmed
             | .confirmed => .confirmed
             | .countdown => .countdown
             | .held => .held
             | .released => .released
             | .isolated => .isolated)
         ∧ (let changed (after : FireState) (why : FireCause) : Prop :=
              let g : Fire := { f with state := after, alarm := setInsert f.alarm it.src, knock := setInsert f.knock it.src }
              t = ((s.popRing.setFire e.zone g).post (.fireState e.zone f.state after why (some it.src) g.remaining
                g.releaseFault g.unconfirmed g.knock.length g.alarm.length)).handOn e.zone f.state
            (f.state = .normal → 2 ≤ s.healthy e.zone → changed .preAlarm .detAlarm)
              ∧ (f.state = .normal → s.healthy e.zone < 2 → changed .confirmed .singleKnock)
              ∧ (f.state = .preAlarm → it.src ∉ f.knock → changed .confirmed .doubleKnock)))
  ∧ (∀ p ∈ ([(Instr.detAlarm, 0x10#8), (.detRestore, 0x11#8)] : List (Instr × Byte)),
       ∀ (s : State) (it : RingItem) (e : NodeEntry), s.offers it p.2 e → (e.cls ≠ .detector ∨ s.zone e.zone = none) →
       exec p.1 s = .next s.popRing)
  ∧ (∀ (s : State) (it : RingItem) (e : NodeEntry), s.offers it 0x11#8 e → e.cls = .detector →
       (s.zone e.zone = none → exec .detRestore s = .next s.popRing)
         ∧ (∀ ze, s.zone e.zone = some ze → exec .detRestore s
             = .next (s.popRing.setFire e.zone
                 { s.fire e.zone with alarm := (s.fire e.zone).alarm.filter (· ≠ it.src) })))
  ∧ (∀ (s : State) (z n : Nat) (ze : ZoneEntry), s.shaped = true → z < 16 → s.zone z = some ze → ze.fire.line = none →
       let f := s.fire z
       (f.state = .preAlarm → n ≤ 1 → ((s.healthyCount z n).fire z).state = .confirmed
           ∧ (∀ y, y ≠ z → ((s.healthyCount z n).fire y).state = (s.fire y).state)
           ∧ s.healthyCount z n = ((s.setFire z { f with state := .confirmed }).post (.fireState z .preAlarm .confirmed
               .healthyCount none f.remaining f.releaseFault f.unconfirmed f.knock.length f.alarm.length)).handOn z .preAlarm)
         ∧ (f.state ≠ .preAlarm ∨ 2 ≤ n → s.healthyCount z n = s))
  ∧ (∀ (s : State) (z : Nat) (why : FireCause) (a : Option Nat) (g : Fire), s.shaped = true → z < 16 →
       s.changeFire z why a (fun _ => g) = ((s.setFire z g).post (.fireState z (s.fire z).state g.state why a g.remaining
         g.releaseFault g.unconfirmed g.knock.length g.alarm.length)).handOn z (s.fire z).state)

/-- A confirmed zone with a release line makes the discharge check: passed, the countdown is loaded with the release
delay in tenths and runs, or is HELD under an active abort; failed, the zone stays CONFIRMED with RELEASE_FAULT set
and the fault output asserted (R104 to R106, R52). An abort released returns a HELD zone to COUNTDOWN: on with the
remaining count under RESUME, and a fresh count of the release delay under RESTART (R106, R108). -/
def Obligations.CountdownIsLoadedAndResumed : Prop :=
    (∀ (s : State) (z q : Nat) (ze : ZoneEntry) (cause : FireCause) (a : Option Nat), s.shaped = true → z < 16 →
       s.zone z = some ze → ze.fire.line = some q →
       let t := s.confirmFire z cause a
       let passed := ze.fire.checkLine = none ∨ (s.conditions z).discharge = true
       (passed → (s.conditions z).abort = false →
           (t.fire z).state = .countdown ∧ (t.fire z).remaining = some (10 * ze.fire.delay) ∧ t.fz.fireActive = true)
         ∧ (passed → (s.conditions z).abort = true →
             (t.fire z).state = .held ∧ (t.fire z).remaining = some (10 * ze.fire.delay) ∧ t.fz.fireActive = true)
         ∧ (¬ passed → (t.fire z).state = .confirmed ∧ (t.fire z).releaseFault = true ∧ t.lu.fault = true))
  ∧ (∀ (s : State) (z : Nat) (e : ZoneEntry), s.shaped = true → z < 16 → s.zone z = some e → (s.fire z).state = .held →
       (s.conditions z).abort = false →
       ((s.abortReleased z).fire z).state = .countdown
         ∧ ((s.abortReleased z).fire z).remaining
             = (match e.fire.policy with
               | .resume => (s.fire z).remaining
               | .restart => some (10 * e.fire.delay)))

/-- A countdown expires when its count has reached 0, and changes nothing before (R106). Its expiry releases the zone:
RELEASED, no countdown, its release output asserted and no other moved, FIRE_ACTIVE set (R51, R109, R119). Where the zone has
a suppression node release-unconfirmed is set, and a RELEASE telegram to it stands in the FIRE class of the queue, or waits
pending where the queue gives no place (R21, R110, R111). The cartridges of the zone that stand in no engine's list carry
QUARANTINE, and those of other zones are as before (R139). -/
def Obligations.ExpiryReleasesTheAgent : Prop :=
  ∀ (s : State) (z : Nat) (ze : ZoneEntry), s.shaped = true → z < 16 → s.zone z = some ze →
    ((s.fire z).state = .countdown → (s.fire z).remaining = some 0 →
    ∃ t, exec (.countdownExpiry z) s = .next t ∧ (t.fire z).state = .released ∧ (t.fire z).remaining = none
      ∧ t.lu.release = (match ze.fire.line with
          | some q => s.lu.release.set q true
          | none => s.lu.release)
      ∧ t.fz.fireActive = true
      ∧ ((s.suppressionNode z).isSome = true → (t.fire z).unconfirmed = true)
      ∧ (∀ a, s.suppressionNode z = some a →
          (s.lif.txq.length < 24 → s.arrivalsRising = true → ∃ x ∈ t.lif.txq, x.cls = .fire ∧ x.dest = a ∧ x.kind = 0x80#8
            ∧ x.payload = [BitVec.ofNat 8 z] ∧ x.origin = .release z true)
            ∧ (24 ≤ s.lif.txq.length → (∀ x ∈ s.lif.txq, x.state = .onLoop ∨ x.cls = .fire) →
                (t.fire z).pendingRelease = true))
      ∧ (Table.wf s.cat.cartridges = true → ∀ i c, s.cartridge i = some c → (∀ h, i ∉ (s.engine h).list) →
          let here := ((c.state = .shelved ∨ c.state = .ordered ∨ c.state = .picked) ∧ c.homeZone = z)
            ∨ ((c.state = .staging ∨ c.state = .ready) ∧ c.staging = some z)
          (here → ∃ d, t.cartridge i = some d ∧ d.quarantine = true) ∧ (¬ here → t.cartridge i = some c))
      ∧ (∀ y, y ≠ z → (t.fire y).state = (s.fire y).state) ∧ t.nt = s.nt ∧ t.zt = s.zt ∧ t.cu = s.cu ∧ t.cs = s.cs)
    ∧ ((s.fire z).state ≠ .countdown ∨ (s.fire z).remaining ≠ some 0 → exec (.countdownExpiry z) s = .next s)

/-- FIRE_RESET: NORMAL is OK without a change, ISOLATED is refused BAD_STATE, COUNTDOWN and HELD are refused ACTIVE, and
so is a zone with an alarm or an active panel; else the zone is NORMAL with its knock set and its flags cleared and its
release output deasserted (R112, R51). -/
def Obligations.FireResetReturnsTheZone : Prop :=
  ∀ (s : State) (d : Directive) (b : Byte), s.shaped = true → s.hasTakenVerified d →
    d.body = [0x30#8, b] → b.toNat ≤ 15 →
    let z := b.toNat
    let s1 := s.taken
    let f := s.fire z
    let refusal (r : Result) : State := s1.conclude d r (.fire f.state f.alarm.length (s.conditions z).panel)
    (f.state = .normal → exec .fireReset s = .next (s1.conclude d .ok .empty))
      ∧ (f.state = .isolated → exec .fireReset s = .next (refusal .badState))
      ∧ (f.state = .countdown ∨ f.state = .held → exec .fireReset s = .next (refusal .active))
      ∧ (f.state = .preAlarm ∨ f.state = .confirmed ∨ f.state = .released →
          f.alarm ≠ [] ∨ (s.conditions z).panel = true → exec .fireReset s = .next (refusal .active))
      ∧ (f.state = .preAlarm ∨ f.state = .confirmed ∨ f.state = .released → f.alarm = [] →
          (s.conditions z).panel = false → ∃ t, exec .fireReset s = .next t ∧ (t.fire z).state = .normal
            ∧ (t.fire z).knock = [] ∧ (t.fire z).alarm = [] ∧ (t.fire z).releaseFault = false
            ∧ (t.fire z).unconfirmed = false ∧ (∀ y, y ≠ z → (t.fire y).state = (s.fire y).state)
            ∧ t.nt = s.nt ∧ t.zt = s.zt ∧ t.cu = s.cu ∧ t.cs = s.cs
            ∧ (∀ ze q, f.state = .released → s.zone z = some ze → ze.fire.line = some q →
                t.lu.release = s.lu.release.set q false))

/-- ISOLATE takes a NORMAL or PRE_ALARM zone to ISOLATED with its knock set emptied and its alarm set kept, and is
refused ACTIVE in a fire (R113). RESTORE of an ISOLATED zone with no alarm and no active panel or manual release gives
NORMAL; with an alarm and two healthy detectors the lowest alarm opens PRE_ALARM; with an active panel or manual release
the fire is CONFIRMED (R115; the zone is then taken to have no release line). -/
def Obligations.IsolateAndRestoreMoveTheZone : Prop :=
  ∀ (s : State) (d : Directive) (b : Byte) (ze : ZoneEntry), s.shaped = true →
    s.hasTakenVerified d → b.toNat ≤ 15 → s.zone b.toNat = some ze →
    let z := b.toNat
    let f := s.fire z
    (d.body = [0x31#8, b] → f.state = .normal ∨ f.state = .preAlarm →
        ∃ t, exec .isolate s = .next t ∧ (t.fire z).state = .isolated ∧ (t.fire z).knock = []
          ∧ (t.fire z).alarm = f.alarm ∧ (∀ y, y ≠ z → (t.fire y).state = (s.fire y).state)
          ∧ t.nt = s.nt ∧ t.zt = s.zt ∧ t.cu = s.cu ∧ t.cs = s.cs)
      ∧ (d.body = [0x31#8, b] → f.state = .confirmed ∨ f.state = .countdown ∨ f.state = .held ∨ f.state = .released →
          exec .isolate s = .next (s.taken.conclude d .active .empty))
      ∧ (d.body = [0x32#8, b] → f.state = .isolated → f.alarm = [] → (s.conditions z).panel = false →
          (s.conditions z).manual = false →
          ∃ t, exec .restore s = .next t ∧ (t.fire z).state = .normal ∧ (t.fire z).knock = []
            ∧ (∀ y, y ≠ z → (t.fire y).state = (s.fire y).state) ∧ t.nt = s.nt ∧ t.zt = s.zt ∧ t.cu = s.cu ∧ t.cs = s.cs)
      ∧ (∀ a l, d.body = [0x32#8, b] → f.state = .isolated → f.alarm = a :: l → (s.conditions z).panel = false →
          (s.conditions z).manual = false → 2 ≤ s.healthy z →
          ∃ t, exec .restore s = .next t ∧ (t.fire z).state = .preAlarm ∧ (t.fire z).knock = [a]
            ∧ (∀ y, y ≠ z → (t.fire y).state = (s.fire y).state) ∧ t.nt = s.nt ∧ t.zt = s.zt ∧ t.cu = s.cu ∧ t.cs = s.cs)
      ∧ (d.body = [0x32#8, b] → f.state = .isolated → (s.conditions z).panel = true ∨ (s.conditions z).manual = true →
          ze.fire.line = none →
          ∃ t, exec .restore s = .next t ∧ (t.fire z).state = .confirmed
            ∧ (∀ y, y ≠ z → (t.fire y).state = (s.fire y).state) ∧ t.nt = s.nt ∧ t.zt = s.zt ∧ t.cu = s.cu ∧ t.cs = s.cs)
      ∧ (d.body = [0x32#8, b] → f.state ≠ .isolated → exec .restore s = .next (s.taken.conclude d .badState .empty))

/-! ## Locks -/

/-- A lock's commanded state is UNLOCKED exactly while a HANDOVER or MAINTENANCE claim and no FIRE_HOLD is held; a change
is sent at once where no LOCK_SET is in the queue or waits (R56). Where the queue is full and gives up no item for it, the
send waits PENDING (R21, R57), the sent state being that of the dropped telegram (the model's choice, log 30). FIRE_HOLD is placed and removed as its condition stands, and no other claim moves: on a lock
that a zone names as its hatch lock it stands while FIRE_ACTIVE holds, and on any other while the zone of its node entry is
COUNTDOWN, HELD or RELEASED (R54). -/
def Obligations.ClaimsDecideTheCommandedState : Prop :=
    (∀ (s : State) (a : Nat) (l : Lock) (f : Claims → Claims), s.lock a = some l →
      let c := f l.claims
      let want : LockState :=
        if (c.handover0 = true ∨ c.handover1 = true ∨ c.maintenance.isSome = true) ∧ c.fireHold = false
        then .unlocked else .locked
      let t := s.setClaims a f
      (want = l.commanded → t = s.setLock a { l with claims := c })
        ∧ (want ≠ l.commanded → l.send ≠ .idle → t.lock a = some { l with claims := c, commanded := want } ∧ t.lif = s.lif)
        ∧ (want ≠ l.commanded → l.send = .idle → s.lif.txq.length < 24 →
            t.lock a = some { l with claims := c, commanded := want, sent := want, send := .inFlight }
            ∧ t.lif = (s.placeTx { cls := .lock, dest := a, kind := 0x90#8, payload := lockSetPayload want,
                                   origin := .lockSet a true }).lif)
        ∧ (want ≠ l.commanded → l.send = .idle → 24 ≤ s.lif.txq.length →
            (∀ x ∈ s.lif.txq, x.state = .onLoop ∨ x.cls = .lock ∨ x.cls = .fire) →
            t.lock a = some { l with claims := c, commanded := want, sent := want, send := .pending } ∧ t.lif = s.lif))
  ∧ (∀ (s : State) (a : Nat) (l : Lock), s.lock a = some l →
      let hatchLock : Prop := ∃ p q, p ∈ s.zt.zones ∧ p.2.handover = some q ∧ q.lock = a
      let due : Prop :=
        (hatchLock ∧ s.fz.fireActive = true)
          ∨ (¬ hatchLock ∧ ∃ n, s.node a = some n ∧ ((s.fire n.zone).state = .countdown ∨ (s.fire n.zone).state = .held
              ∨ (s.fire n.zone).state = .released))
      (∃ l', (s.settleFireHold a).lock a = some l' ∧ (l'.claims.fireHold = true ↔ due)
          ∧ l'.claims = { l.claims with fireHold := l'.claims.fireHold })
        ∧ ((l.claims.fireHold = true ↔ due) → s.settleFireHold a = s))

/-- MAINT_UNLOCK places or renews the MAINTENANCE claim and answers with the commanded state, or is refused (R55); its
expiry removes the claim, and a claim whose time has not run out stands (R55). -/
def Obligations.MaintenanceClaimRunsItsTime : Prop :=
  ∀ (s : State) (d : Directive) (b d0 d1 : Byte) (a : Nat) (l : Lock),
    (s.hasTakenVerified d → d.body = [0x33#8, b, d0, d1] →
      let s1 := s.taken
      let dur := d0.toNat + 256 * d1.toNat
      (addressInRange b.toNat = false ∨ dur = 0 ∨ 300 < dur →
          exec .maintUnlock s = .next (s1.conclude d .range .empty))
        ∧ (addressInRange b.toNat = true → 1 ≤ dur → dur ≤ 300 →
            (s.lock b.toNat = none → exec .maintUnlock s = .next (s1.conclude d .notFound .empty))
              ∧ (∀ k, s.lock b.toNat = some k → k.claims.fireHold = true →
                  exec .maintUnlock s = .next (s1.conclude d .badState .empty))
              ∧ (∀ k, s.lock b.toNat = some k → k.claims.fireHold = false →
                  exec .maintUnlock s
                    = .next ((s1.setClaims b.toNat (fun c => { c with maintenance := some (100 * dur) })).conclude d .ok
                        (.commanded .unlocked)))))
      ∧ (s.lock a = some l → l.claims.maintenance = some 0 →
          exec (.maintenanceExpiry a) s = .next (s.setClaims a (fun c => { c with maintenance := none })))
      ∧ (s.lock a = some l → l.claims.maintenance ≠ some 0 → exec (.maintenanceExpiry a) s = .next s)

/-- A door report that differs from the door state changes it and starts or stops the door-held timer; the same report
changes nothing, and neither does one of another value or length, or from a node without a lock record (R58, R206). The timer's expiry raises DOOR_HELD once for an opening (R58); one that has not run out does not
expire. -/
def Obligations.DoorReportsMoveTheDoor : Prop :=
  (∀ (s : State) (it : RingItem) (e : NodeEntry), s.offers it 0x30#8 e →
    (s.lock it.src = none ∨ (it.payload ≠ [0x01#8] ∧ it.payload ≠ [0x02#8])
      ∨ ∃ l, s.lock it.src = some l ∧ ((it.payload = [0x01#8] ∧ l.door = .opened) ∨ (it.payload = [0x02#8] ∧ l.door = .closed))) →
    exec .doorState s = .next s.popRing)
  ∧ ∀ (s : State) (it : RingItem) (e : NodeEntry) (l : Lock) (a : Nat),
    (s.offers it 0x30#8 e → s.lock it.src = some l → s.hatchOfLock it.src = none →
      (it.payload = [0x01#8] → l.door ≠ .opened → exec .doorState s
          = .next (s.popRing.setLock it.src { l with door := .opened, doorTimer := some 12000, heldMark := false }))
        ∧ (it.payload = [0x02#8] → l.door ≠ .closed → exec .doorState s
            = .next (s.popRing.setLock it.src { l with door := .closed, doorTimer := none }))
        ∧ (it.payload = [0x01#8] → l.door = .opened → exec .doorState s = .next s.popRing)
        ∧ (it.payload = [0x02#8] → l.door = .closed → exec .doorState s = .next s.popRing))
      ∧ (s.lock a = some l → l.doorTimer ≠ some 0 → exec (.doorHeldTimerExpiry a) s = .next s)
      ∧ (s.lock a = some l → l.doorTimer = some 0 →
          (l.heldMark = false → exec (.doorHeldTimerExpiry a) s
              = .next ((s.setLock a { l with doorTimer := none, heldMark := true }).post
                  (.doorHeld a l.commanded l.claims)))
            ∧ (l.heldMark = true → exec (.doorHeldTimerExpiry a) s = .next (s.setLock a { l with doorTimer := none })))

/-! ## The catalogue -/

/-- An EMPTY is judged by the home cartridge of the slot (R128): SHELVED becomes MISSING, ORDERED becomes PICKED with its
order, and in every other state, or with no home cartridge, nothing changes. An event in no form, or of a node whose entry is no
SLOT_STRIP any more, is discarded (R127). An OCCUPIED with a label no record holds is
FOREIGN, and of a record with another home MISFILED; neither changes a record (R129). At its home slot a loose pick, a
READY and a MISSING cartridge is SHELVED with reason RESHELVED (R130); a STAGING one SHELVED_EARLY with INSPECT (R131); a
PICKED or MANIFESTED one with an order ORDERED again, its order WAITING or RELEASED as its zone's fire state says, and out of
the manifest (R130, R132, R157); an AWAY or INBOUND one SHELVED with INSPECT and reason RETURNED_IRREGULAR, its courier
holding one fewer (R133). -/
def Obligations.SlotEventsFollowTheCartridge : Prop :=
  (∀ (s : State) (it : RingItem) (e : NodeEntry), s.catBusy = false → s.offers it 0x20#8 e → e.cls ≠ .slotStrip →
    exec .slotEvent s = .next s.popRing)
  ∧ ∀ (s : State) (it : RingItem) (e : NodeEntry) (base off : Nat), s.catBusy = false → s.offers it 0x20#8 e →
    e.cls = .slotStrip → e.slotBase = some base →
    (∀ i c, parseSlotEvent it.payload = some (.emptied off) → s.indexOfSlot e.zone (base + off) = some i →
        s.cartridge i = some c → c.state = .shelved →
        exec .slotEvent s
          = .next ((s.popRing.setCartridge i { c with state := .missing }).post
              (.cartridgeState i c.label .shelved .missing c.hold c.quarantine c.inspect none c.order c.courier .removed)))
      ∧ (∀ i c n, parseSlotEvent it.payload = some (.emptied off) → s.indexOfSlot e.zone (base + off) = some i →
          s.cartridge i = some c → c.state = .ordered → c.order = some n →
          let moved := (s.popRing.setCartridge i { c with state := .picked }).moveOrder n .picked
          exec .slotEvent s
              = .next (moved.post (.cartridgeState i c.label .ordered .picked c.hold c.quarantine c.inspect
                  (some c.homeZone) c.order c.courier .picked))
            ∧ ∀ o, s.order n = some o → ∃ o', moved.order n = some o' ∧ o'.state = .picked)
      ∧ (∀ i c, parseSlotEvent it.payload = some (.emptied off) → s.indexOfSlot e.zone (base + off) = some i →
          s.cartridge i = some c → c.state ≠ .shelved → c.state ≠ .ordered → exec .slotEvent s = .next s.popRing)
      ∧ (parseSlotEvent it.payload = some (.emptied off) → s.indexOfSlot e.zone (base + off) = none →
          exec .slotEvent s = .next s.popRing)
      ∧ (∀ l, parseSlotEvent it.payload = some (.occupied off l) → s.indexOfLabel l = none →
          exec .slotEvent s = .next (s.popRing.post (.foreign it.src e.zone (base + off) l)))
      ∧ (∀ l i c, parseSlotEvent it.payload = some (.occupied off l) → s.indexOfLabel l = some i →
          s.cartridge i = some c → (c.homeZone ≠ e.zone ∨ c.homeSlot ≠ base + off) →
          exec .slotEvent s
            = .next (s.popRing.post (.misfiled it.src e.zone (base + off) l i c.homeZone c.homeSlot c.state)))
      ∧ (parseSlotEvent it.payload = none → exec .slotEvent s = .next s.popRing)
      ∧ (∀ l i c, parseSlotEvent it.payload = some (.occupied off l) → s.indexOfLabel l = some i →
          s.cartridge i = some c → c.homeZone = e.zone → c.homeSlot = base + off →
          let home : Cartridge :=
            { c with state := .shelved, order := none, courier := none, dueBack := none, overdue := false, hatch := none,
                     staging := none, acclim := none }
          let told (u : State) (h : Cartridge) (q : Option Nat) (why : CartReason) : State :=
            (u.setCartridge i h).post
              (.cartridgeState i c.label c.state .shelved c.hold c.quarantine h.inspect (some c.homeZone) none q why)
          (c.state = .shelved ∨ c.state = .ordered → exec .slotEvent s = .next s.popRing)
            ∧ ((c.state = .picked ∧ c.order = none) ∨ c.state = .ready ∨ c.state = .missing →
                exec .slotEvent s = .next (told s.popRing home none .reshelved))
            ∧ (c.state = .staging →
                exec .slotEvent s = .next (told s.popRing { home with inspect := true } none .shelvedEarly))
            ∧ (c.state = .away →
                exec .slotEvent s
                  = .next (told (s.popRing.lowerHeldOf c.courier) { home with inspect := true } c.courier .returnedIrregular))
            ∧ (c.state = .inbound →
                exec .slotEvent s
                  = .next (told ((s.popRing.dropFromList c.hatch i).lowerHeldOf c.courier) { home with inspect := true }
                      c.courier .returnedIrregular))
            ∧ (∀ n o, c.state = .picked ∨ c.state = .manifested → c.order = some n → s.order n = some o → o.index = i →
                s.lif.txq.length < 24 →
                ∃ t o', exec .slotEvent s = .next t ∧ t.cartridge i = some { c with state := .ordered, hatch := none }
                  ∧ t.order n = some o'
                  ∧ o'.state = (if (s.fire c.homeZone).state.holdsOrders then .waiting else .released)
                  ∧ ∀ h, c.state = .manifested → c.hatch = some h → (t.engine h).list = (s.engine h).list.filter (· ≠ i)))
      ∧ (∀ u : State, ∀ id p f k, u.partyKey id = some k → Table.get u.pt.parties k = some p → p.id = id → p.courier = some f →
          Table.wf u.pt.parties = true → (u.lowerHeldOf (some id)).heldCount id = f.held - 1)

/-- The completion of a catalogue clear: refused IN_USE, with the latch set, where a record is in motion; else every
place is empty, each courier holds as many fewer as it had cartridges AWAY, and the reply is OK (R142, R145, R195). Of a
load: OK with the count where no entry fails, and refused with the failing entry's offset where one does (R143, R194). Then
the pending epochs are worked, oldest first (R75), and TI takes the next directive (R187); a ring head that waited, and the
directive taken, are decided by their own commands (the model's choice, log 3). An entry that a load places or removes
keeps the labels and the home places of the catalogue distinct (R124). -/
def Obligations.CatalogueWorkCompletes : Prop :=
  (
  ∀ (s : State) (d : Directive) (first count : Nat) (entries : List Byte),
    let worked (u : State) : State :=
      (u.cu.epochs.foldl State.epochWork { u with cu := { u.cu with epochs := [] } }).takeNext
    let table := d.body.getD 1 0x05#8
    (s.ti.inHand = some (.catalogueClear d) → (∃ p ∈ s.cat.cartridges, p.2.inMotion = true) →
        exec .catalogueCompletion s = .next (worked (s.dropHand.refuseClear d table .inUse)))
      ∧ (s.ti.inHand = some (.catalogueClear d) → (∀ p ∈ s.cat.cartridges, p.2.inMotion = false) →
          ∃ u, exec .catalogueCompletion s = .next (worked u) ∧ u.cat.cartridges = [] ∧ u.ti.inHand = none
            ∧ u.ti.replies = s.ti.replies ++ [{ tag := d.tag, code := bodyCode d.body, result := .ok, body := .empty,
                                                restarts := false }]
            ∧ u = { s with cat := u.cat, pt := u.pt, ti := u.ti }
            ∧ (Table.wf s.cat.cartridges = true → Table.wf s.pt.parties = true → ∀ id,
                u.heldCount id = s.heldCount id
                  - (s.cat.cartridges.filter (fun p => p.2.state = .away ∧ p.2.courier = some id)).length))
      ∧ (∀ s1, s.ti.inHand = some (.catalogueLoad d first count entries) →
          State.loadEntries .catalogue first 0 (cutEntries 24 count entries) s.dropHand = .ok s1 →
          exec .catalogueCompletion s = .next (worked (s1.reply d .ok (.loaded count))))
      ∧ (∀ off r, s.ti.inHand = some (.catalogueLoad d first count entries) → s.ti.latch = false → r ≠ .latched →
          State.loadEntries .catalogue first 0 (cutEntries 24 count entries) s.dropHand = .error (off, r) →
          exec .catalogueCompletion s
            = .next (worked (({ s with ti := { s.ti with
                inHand := none, latch := true
                lastLoadError := some { directive := bodyCode d.body, table := table, offset := some off, code := r } } }).reply d
                  r (.loadRefused table (some off))))))
  ∧ (∀ (s u : State) (index : Nat) (e : List Byte), s.loadEntry .catalogue index e = .ok u →
      let distinct (v : State) : Prop := ∀ i j c d, v.cartridge i = some c → v.cartridge j = some d →
        (c.label = d.label ∨ (c.homeZone = d.homeZone ∧ c.homeSlot = d.homeSlot)) → i = j
      distinct s → distinct u)

/-- A zone's release marks the cartridges whose current zone it is, and no others (R139): a SHELVED, ORDERED, PICKED,
STAGING or READY record there carries QUARANTINE afterwards, and its order, where it has one, is removed: ORDERED becomes
SHELVED and PICKED a loose pick (R126). Every other record is as before. One QUARANTINE notice tells the zone, the records
marked and the orders removed. An order leaves the list with ORDER_CLOSED and its reason (R159). -/
def Obligations.ReleaseQuarantinesTheZone : Prop :=
    (∀ (s : State) (z i : Nat) (c : Cartridge), Table.wf s.cat.cartridges = true → s.cartridge i = some c →
      let here := ((c.state = .shelved ∨ c.state = .ordered ∨ c.state = .picked) ∧ c.homeZone = z)
        ∨ ((c.state = .staging ∨ c.state = .ready) ∧ c.staging = some z)
      (here → c.order = none → (s.quarantineZone z).cartridge i = some { c with quarantine := true })
        ∧ (∀ n, here → c.order = some n → c.quarantine = false →
            (s.quarantineZone z).cartridge i
                = some { c with quarantine := true, order := none
                                state := (if c.state = .ordered then .shelved else c.state) }
              ∧ (s.quarantineZone z).order n = none)
        ∧ (¬ here → (s.quarantineZone z).cartridge i = some c))
  ∧ (∀ (s : State) (z : Nat), Table.wf s.cat.cartridges = true →
      let marked := s.cat.cartridges.filter (fun p => p.2.state.inZone && !p.2.quarantine && s.currentZone p.2 = some z)
      ∃ u : State, s.quarantineZone z = u.post (.quarantine z marked.length (marked.filter (·.2.order.isSome)).length))
  ∧ (∀ (s : State) (n : Nat) (o : Order) (c : Cartridge) (why : OrderReason), s.order n = some o → o.pick = .notSent →
      s.cartridge o.index = some c →
      ∃ u : State, s.closeOrder n why = u.post (.orderClosed n c.label o.index o.courier o.state why)
        ∧ u.ol.orders = s.ol.orders.filter (fun p => p.number ≠ n) ∧ u = { s with ol := u.ol, lif := u.lif })

/-- INSPECT_CLEAR: RANGE for a label outside the label set, NOT_FOUND for one no record holds, BAD_STATE for a cartridge
away or being handed over; else INSPECT and QUARANTINE are cleared, the exposure is 0, and CLEARED is told (R141). -/
def Obligations.InspectClearReturnsToCirculation : Prop :=
  ∀ (s : State) (d : Directive) (l : Label), s.hasTakenVerified d → l.length = 8 →
    d.body = 0x22#8 :: l →
    let s1 := s.taken
    (labelOk l = false → exec .inspectClear s = .next (s1.conclude d .range .empty))
      ∧ (labelOk l = true → s.indexOfLabel l = none → exec .inspectClear s = .next (s1.conclude d .notFound .empty))
      ∧ (∀ i c, s.indexOfLabel l = some i → s.cartridge i = some c →
          (c.state = .away ∨ c.state = .inbound ∨ c.state = .manifested →
              exec .inspectClear s = .next (s1.conclude d .badState .empty))
            ∧ (c.state ≠ .away → c.state ≠ .inbound → c.state ≠ .manifested →
                exec .inspectClear s
                  = .next (((s1.setCartridge i { c with inspect := false, quarantine := false, exposure := 0 }).post
                      (.cartridgeState i c.label c.state c.state c.hold false false (s.currentZone c) c.order c.courier
                        .cleared)).conclude d .ok .empty)))

/-! ## Orders -/

/-- An ORDER that no check refuses is accepted: the order stands at the tail of the list with the next number, its
cartridge is ORDERED under that number, and its zone's fire state says whether it is RELEASED or WAITING (R151 to R154). A
released order whose zone names a node of class PICK_DISPLAY has its PICK queued to that node and stands IN_FLIGHT (R154; a
free place in the queue is assumed). A refused ORDER changes nothing but the reply; its checks stand in the order of
R152. The number is the next after the last, 65535 followed by 1, numbers of open orders passed over (R151). A zone that
enters a state that holds orders makes its RELEASED orders WAITING, their picks settled, one that returns to NORMAL from such
a state releases its WAITING orders, another change of fire state moves none, and an epoch releases the WAITING orders of
every zone that lets orders go (R154 to R156; free places in the queue are assumed for their PICKs). -/
def Obligations.OrderIsAcceptedOrRefused : Prop :=
  (∀ (s : State) (d : Directive) (l : Label) (p0 p1 : Byte), s.hasTakenVerified d →
    l.length = 8 → d.body = 0x20#8 :: l ++ [p0, p1] →
    let id := p0.toNat + 256 * p1.toNat
    let s1 := s.taken
    (∀ r, s.judgeOrder l id = some r → exec .order s = .next (s1.conclude d r .empty))
      ∧ (∀ i c ze, s.judgeOrder l id = none → s.indexOfLabel l = some i → s.cartridge i = some c →
          s.zone c.homeZone = some ze → s.order s.newNumber = none → s.lif.txq.length < 24 →
          let held := (s.fire c.homeZone).state.holdsOrders
          let shows (a : Nat) : Prop := ze.fire.display = some a ∧ s.hasClass a .pickDisplay = true ∧ held = false
          let o (p : Pick) : Order :=
                           { number := s.newNumber, index := i, courier := id,
                             state := (if held then .waiting else .released), pick := p,
                             timeAccepted := (if s.ti.clockSet then some s.ti.clock else none) }
          ∃ t, exec .order s = .next t
            ∧ t.cartridge i = some { c with state := .ordered, order := some s.newNumber }
            ∧ t = { s with ol := t.ol, cat := t.cat, ti := t.ti, lif := t.lif }
            ∧ ((∀ a, ¬ shows a) → t.ol = { orders := s.ol.orders ++ [o .notSent], lastNumber := s.newNumber } ∧ t.lif = s.lif)
            ∧ (∀ a, shows a → t.ol = { orders := s.ol.orders ++ [o .inFlight], lastNumber := s.newNumber }
                ∧ t.lif = (s.placeTx { cls := .display, dest := a, kind := 0xA0#8
                                       payload := c.label ++ leBytes 2 c.homeSlot ++ leBytes 2 s.newNumber
                                       origin := .pick s.newNumber false }).lif)
            ∧ t.ti.replies = s.ti.replies ++ [{ tag := d.tag, code := 0x20#8, result := .ok,
                                                body := .ordered s.newNumber (if held then .waiting else .released),
                                                restarts := false }]))
  ∧ (∀ (s : State) (l : Label) (id : Nat),
      s.judgeOrder l id
        = if s.zt.site = none then some .badState
          else if labelOk l = false ∨ id = 0 ∨ 65534 < id then some .range
          else match (s.indexOfLabel l).bind s.cartridge with
            | none => some .notFound
            | some c => match s.party id with
              | none => some .notFound
              | some p => match p.courier with
                | none => some .notFound
                | some f =>
                  if c.state ≠ .shelved then some .badState
                  else if c.hold = true ∨ c.quarantine = true ∨ c.inspect = true then some .flagged
                  else if p.active = false ∨ f.outbound = false then some .notPermitted
                  else if f.limit < s.courierSum id + 1 then some .limit
                  else if 64 ≤ s.ol.orders.length then some .full
                  else none)
  ∧ (∀ s : State, s.ol.orders.length ≤ 64 →
      let next (m : Nat) : Nat := if 65535 ≤ m then 1 else m + 1
      ∃ k, s.newNumber = next^[k + 1] s.ol.lastNumber ∧ (∀ o ∈ s.ol.orders, o.number ≠ s.newNumber)
        ∧ ∀ j < k, ∃ o ∈ s.ol.orders, o.number = next^[j + 1] s.ol.lastNumber)
  ∧ (∀ (s : State) (z : Nat) (before after : FireState) (o : Order), (s.ol.orders.map (·.number)).Nodup → o ∈ s.ol.orders →
      s.lif.txq.length + s.ol.orders.length ≤ 24 →
      let zone := (s.cartridge o.index).map (·.homeZone)
      let released (t : State) : Prop :=
        (o.pick = .inFlight → t.order o.number = some { o with state := .released })
          ∧ (o.pick = .notSent ∨ o.pick = .undelivered →
              (s.displayOf o = none → t.order o.number = some { o with state := .released, pick := .notSent })
                ∧ (∀ a c, s.displayOf o = some a → s.cartridge o.index = some c →
                    t.order o.number = some { o with state := .released, pick := .inFlight }
                      ∧ ∃ x ∈ t.lif.txq, x.cls = .display ∧ x.dest = a ∧ x.kind = 0xA0#8
                        ∧ x.payload = c.label ++ leBytes 2 c.homeSlot ++ leBytes 2 o.number))
      let t := s.ordersFire z before after
      (after.holdsOrders = true → before.holdsOrders = false →
          (o.state = .released → zone = some z →
              (o.pick = .notSent ∨ o.pick = .undelivered → t.order o.number = some { o with state := .waiting, pick := .notSent })
                ∧ (o.pick = .inFlight → t.order o.number = some { o with state := .waiting })
                ∧ (∀ a, o.pick = .shown a → t.order o.number = some { o with state := .waiting, pick := .notSent }
                    ∧ ∃ x ∈ t.lif.txq, x.cls = .display ∧ x.dest = a ∧ x.kind = 0xA1#8 ∧ x.payload = leBytes 2 o.number))
            ∧ (o.state ≠ .released ∨ zone ≠ some z → t.order o.number = some o))
        ∧ (after = .normal → before.holdsOrders = true →
            (o.state = .waiting → zone = some z → released t)
              ∧ (o.state ≠ .waiting ∨ zone ≠ some z → t.order o.number = some o))
        ∧ (after.holdsOrders = before.holdsOrders → t = s)
        ∧ (o.state = .waiting → (∀ y, zone = some y → (s.fire y).state.holdsOrders = false) → released s.ordersEpoch)
        ∧ (o.state ≠ .waiting ∨ (∃ y, zone = some y ∧ (s.fire y).state.holdsOrders = true) →
            s.ordersEpoch.order o.number = some o))

/-- CANCEL_ORDER: RANGE for 0, NOT_FOUND where no open order holds the number, BAD_STATE for a MANIFESTED order; else the
order leaves the list and its cartridge is SHELVED, or a loose pick (R158, R159). -/
def Obligations.CancelTakesTheOrderOut : Prop :=
  ∀ (s : State) (d : Directive) (n0 n1 : Byte), s.hasTakenVerified d →
    d.body = [0x21#8, n0, n1] →
    let n := n0.toNat + 256 * n1.toNat
    let s1 := s.taken
    (n = 0 → exec .cancelOrder s = .next (s1.conclude d .range .empty))
      ∧ (n ≠ 0 → s.order n = none → exec .cancelOrder s = .next (s1.conclude d .notFound .empty))
      ∧ (∀ o, n ≠ 0 → s.order n = some o → o.state = .manifested →
          exec .cancelOrder s = .next (s1.conclude d .badState .empty))
      ∧ (∀ o c, n ≠ 0 → s.order n = some o → o.state ≠ .manifested → s.cartridge o.index = some c →
          ∃ t, exec .cancelOrder s = .next t ∧ t.order n = none
            ∧ (∀ m, m ≠ n → t.order m = s.order m)
            ∧ t.cartridge o.index
                = some { c with state := (if c.state = .ordered then .shelved else c.state), order := none }
            ∧ t.nt = s.nt ∧ t.zt = s.zt ∧ t.lu = s.lu ∧ t.cu = s.cu ∧ t.pt = s.pt ∧ t.he0 = s.he0 ∧ t.he1 = s.he1 ∧ t.cs = s.cs
            ∧ ∃ r ∈ t.ti.replies, r.tag = d.tag ∧ r.result = .ok ∧ r.body = .cancelled o.state)

/-! ## Handover -/

/-- What refuses a courier's badge, in the order of the table of R164. A courier's BADGE at an IDLE engine whose
verdict is ACCEPTED opens the exchange with a 600 s open timer and is answered; a refused badge and one at an engine
that is not IDLE change nothing but the answer (R164, R165). -/
def Obligations.CourierBadgeIsDecidedInOrder : Prop :=
    (∀ (s : State) (h : Hatch) (z : Nat) (g : HandoverGroup) (b : CourierBadge) (p : Party) (c : CourierFields),
       s.hatchZone h = some (z, g) →
       let calm := s.fz.fireActive = false ∧ (s.fire z).state ≠ .confirmed
       let known := s.party b.id = some p ∧ p.courier = some c ∧ p.active = true
         ∧ (match b.direction with
           | .out => c.outbound
           | .inward => c.inbound) = true
       let m := (s.ti.clock / 60) % 1440
       let inWindow := if c.windowStart ≤ c.windowStop then c.windowStart ≤ m ∧ m ≤ c.windowStop
         else c.windowStart ≤ m ∨ m ≤ c.windowStop
       (¬ calm → s.courierVerdict h b = .fireActive)
         ∧ (calm → s.party b.id = none → s.courierVerdict h b = .unknownParty)
         ∧ (calm → s.party b.id = some p → p.courier = none → s.courierVerdict h b = .notPermitted)
         ∧ (calm → s.party b.id = some p → p.courier = some c → p.active = false → s.courierVerdict h b = .notPermitted)
         ∧ (calm → s.party b.id = some p → p.courier = some c →
             (match b.direction with
               | .out => c.outbound
               | .inward => c.inbound) = false → s.courierVerdict h b = .notPermitted)
         ∧ (calm → known → s.ti.clockSet = false → s.courierVerdict h b = .clockUnset)
         ∧ (calm → known → s.ti.clockSet = true → ¬ inWindow → s.courierVerdict h b = .outsideWindow)
         ∧ (calm → known → s.ti.clockSet = true → inWindow → s.lock g.lock = none → s.courierVerdict h b = .badState)
         ∧ (calm → known → s.ti.clockSet = true → inWindow → (∃ l, s.lock g.lock = some l) →
             s.courierVerdict h b = .accepted))
  ∧ (∀ (s : State) (it : RingItem) (h : Hatch) (z : Nat) (g : HandoverGroup) (b : CourierBadge),
       s.offersTerminal it 0x40#8 h .courier z g → parseCourierBadge it.payload = some b →
       let s1 := s.popRing
       ((s.engine h).state ≠ .idle → exec .badge s = .next (s1.answerResult h it.src .busy))
         ∧ ((s.engine h).state = .idle → s.courierVerdict h b ≠ .accepted →
             exec .badge s = .next (s1.answerResult h it.src (s.courierVerdict h b)))
         ∧ ((s.engine h).state = .idle → s.courierVerdict h b = .accepted →
             exec .badge s
               = .next ((s1.setEngine h
                   { Engine.idle with
                     state := .opened, direction := some b.direction, courier := some b.id, caseTag := b.caseTag
                     caseTemp := (match b.direction with
                       | .inward => b.caseTemp
                       | .out => none)
                     openTimer := some 60000 }).answerResult h it.src .accepted)))

/-- An operator's BADGE at an OPEN engine joins the exchange, to SCANNING for OUT and to CONFIRM for IN; an unknown
party, a courier and a SUSPENDED party are refused (R166). A terminal telegram is ignored with TERMINAL_IGNORED where no
HANDOVER zone names the hatch (NO_HATCH) or the node's zone is another (ZONE_MISMATCH), and discarded where the node's
entry is of another class by then, be it with a hatch or without; where the node has no entry any more the item is the
dispatch's to discard (R13); a malformed one, and a SCAN or CLOSE of the courier's side, is answered BAD_STATE and changes nothing
(R162). -/
def Obligations.OperatorBadgeJoinsTheExchange : Prop :=
  (
  ∀ (s : State) (it : RingItem) (h : Hatch) (z id : Nat) (g : HandoverGroup),
    s.offersTerminal it 0x40#8 h .reader z g → parseReaderBadge it.payload = some id →
    let s1 := s.popRing
    let e := s.engine h
    (e.state ≠ .opened → exec .badge s = .next (s1.answerResult h it.src .badState))
      ∧ (e.state = .opened → s.party id = none → exec .badge s = .next (s1.answerResult h it.src .unknownParty))
      ∧ (∀ p, e.state = .opened → s.party id = some p → p.courier.isSome = true ∨ p.active = false →
          exec .badge s = .next (s1.answerResult h it.src .notPermitted))
      ∧ (∀ p, e.state = .opened → s.party id = some p → p.courier = none → p.active = true →
          exec .badge s
            = .next ((s1.setEngine h { e with operator := some id,
                                              state := (if e.direction = some .inward then .confirm else .scanning) })
                |>.answerResult h it.src .accepted)))
  ∧ (∀ p ∈ ([(Instr.badge, 0x40#8), (.scan, 0x41#8), (.close, 0x42#8), (.confirm, 0x43#8), (.cancel, 0x44#8)] :
        List (Instr × Byte)), ∀ (s : State) (it : RingItem) (e : NodeEntry) (h : Hatch), s.offers it p.2 e → e.hatch = some h →
      let ignored (why : IgnoreReason) : State := s.popRing.post (.terminalIgnored it.src e.cls e.zone h p.2 why)
      e.cls = .hatchReader ∨ e.cls = .courierTerminal →
        (s.hatchZone h = none → exec p.1 s = .next (ignored .noHatch))
          ∧ (∀ z g, s.hatchZone h = some (z, g) → e.zone ≠ z → exec p.1 s = .next (ignored .zoneMismatch)))
  ∧ (∀ p ∈ ([(Instr.badge, 0x40#8), (.scan, 0x41#8), (.close, 0x42#8), (.confirm, 0x43#8), (.cancel, 0x44#8)] :
        List (Instr × Byte)), ∀ (s : State) (it : RingItem),
      (∀ e, s.offers it p.2 e → e.cls ≠ .hatchReader → e.cls ≠ .courierTerminal → exec p.1 s = .next s.popRing)
        ∧ (s.lif.ring.head? = some it → it.kind = p.2 → s.node it.src = none →
            exec .undispatchedItem s = .next s.popRing ∧ exec p.1 s = .next s))
  ∧ (∀ p ∈ ([(Instr.badge, 0x40#8), (.scan, 0x41#8), (.close, 0x42#8), (.confirm, 0x43#8), (.cancel, 0x44#8)] :
        List (Instr × Byte)), ∀ (s : State) (it : RingItem) (h : Hatch) (side : Side) (z : Nat) (g : HandoverGroup),
      s.offersTerminal it p.2 h side z g →
      (match p.1, side with
        | .badge, .reader => it.payload.length ≠ 2
        | .badge, .courier => it.payload.length ≠ 7
            ∨ (∀ d, it.payload[2]? = some d → d ≠ 0x01#8 ∧ d ≠ 0x02#8)
        | .scan, .reader => it.payload.length ≠ 8
        | .scan, .courier => True
        | .close, .courier => True
        | _, _ => it.payload ≠ []) →
      exec p.1 s = .next (s.popRing.answerResult h it.src .badState))

/-- A SCAN of a label no record holds is FOREIGN; an accepted scan of a PICKED cartridge ordered for the engine's
courier puts it on the manifest as MANIFESTED (R167), and of an AWAY cartridge on the intake list as INBOUND (R175).
A scan that repeats a listed cartridge is DUPLICATE, at a list of 48 FULL, of a flagged cartridge in SCANNING FLAGGED, and of
one that is not PICKED under an order of the engine's courier, or in INTAKE not AWAY, UNEXPECTED; it changes nothing (R167,
R175).
CLOSE ends the scanning of a manifest that is not empty, and in INTAKE commits the exchange, an empty list included:
the engine is IDLE, and each listed cartridge STAGING in the hatch zone's staging zone with its acclimatization
requirement, its courier holding one fewer (R168, R176, R178). In any other state it is answered BAD_STATE. -/
def Obligations.ScansFillTheListAndCloseEndsIt : Prop :=
    (∀ (s : State) (it : RingItem) (h : Hatch) (z : Nat) (g : HandoverGroup), s.offersTerminal it 0x41#8 h .reader z g →
       it.payload.length = 8 →
       let e := s.engine h
       let listed : Engine → Nat → Engine := fun e i => { e with list := e.list ++ [i] }
       (e.state = .scanning ∨ e.state = .intake → s.indexOfLabel it.payload = none →
           exec .scan s = .next (s.popRing.answerResult h it.src .foreign))
         ∧ (∀ i c n o, e.state = .scanning → s.indexOfLabel it.payload = some i → s.cartridge i = some c → i ∉ e.list →
             e.list.length < 48 → c.flagged = false → c.state = .picked → c.order = some n → s.order n = some o →
             some o.courier = e.courier → o.state = .picked →
             exec .scan s
               = .next ((((s.popRing.setEngine h (listed e i)).setCartridge i { c with state := .manifested, hatch := some h }).setOrder
                   { o with state := .manifested }).answerResult h it.src .accepted))
         ∧ (∀ i c, e.state = .intake → s.indexOfLabel it.payload = some i → s.cartridge i = some c → i ∉ e.list →
             e.list.length < 48 → c.state = .away →
             exec .scan s
               = .next (((s.popRing.setEngine h (listed e i)).setCartridge i { c with state := .inbound, hatch := some h })
                   |>.answerResult h it.src .accepted))
         ∧ (∀ i c, e.state = .scanning ∨ e.state = .intake → s.indexOfLabel it.payload = some i → s.cartridge i = some c →
             let answered (r : ResultCode) : Prop := exec .scan s = .next (s.popRing.answerResult h it.src r)
             (i ∈ e.list → answered .duplicate)
               ∧ (i ∉ e.list → 48 ≤ e.list.length → answered .full)
               ∧ (i ∉ e.list → e.list.length < 48 → e.state = .scanning → c.flagged = true → answered .flagged)
               ∧ (i ∉ e.list → e.list.length < 48 → e.state = .scanning → c.flagged = false →
                   (c.state ≠ .picked ∨ c.order = none ∨ ∃ n o, c.order = some n ∧ s.order n = some o ∧ some o.courier ≠ e.courier) →
                   answered .unexpected)
               ∧ (i ∉ e.list → e.list.length < 48 → e.state = .intake → c.state ≠ .away → answered .unexpected))
         ∧ (e.state = .idle ∨ e.state = .opened ∨ e.state = .confirm ∨ e.state = .release →
             exec .scan s = .next (s.popRing.answerResult h it.src .badState)))
  ∧ (∀ (s : State) (it : RingItem) (h : Hatch) (z : Nat) (g : HandoverGroup), s.offersTerminal it 0x42#8 h .reader z g →
       it.payload = [] →
       let e := s.engine h
       (e.state = .scanning → e.list = [] → exec .close s = .next (s.popRing.answerResult h it.src .empty))
         ∧ (e.state = .scanning → e.list ≠ [] →
             exec .close s
               = .next ((s.popRing.setEngine h { e with state := .confirm, first := none }).answerResult h it.src .accepted))
         ∧ (e.state = .idle ∨ e.state = .opened ∨ e.state = .confirm ∨ e.state = .release →
             exec .close s = .next (s.popRing.answerResult h it.src .badState))
         ∧ (e.state = .intake → ∃ t, exec .close s = .next t ∧ t.engine h = Engine.idle
             ∧ (∀ k, k ≠ h → t.engine k = s.engine k) ∧ t.nt = s.nt ∧ t.zt = s.zt ∧ t.lu = s.lu ∧ t.cu = s.cu ∧ t.cs = s.cs
             ∧ (∀ i c, i ∈ e.list → s.cartridge i = some c →
                 ∃ c', t.cartridge i = some c' ∧ c'.state = .staging ∧ c'.staging = some g.staging
                   ∧ c'.acclim = some (s.acclimRequirement g.staging e.caseTemp)
                   ∧ c' = { c with state := .staging, staging := c'.staging, acclim := c'.acclim, courier := none
                                   dueBack := none, hatch := none, overdue := false })
             ∧ (∀ i, i ∉ e.list → t.cartridge i = s.cartridge i)
             ∧ (∀ id, Table.wf s.pt.parties = true → e.list.Nodup →
                 t.heldCount id = s.heldCount id
                   - (e.list.filter (fun i => (s.cartridge i).bind (·.courier) = some id)).length)))

/-- A first CONFIRM opens a 30 s window; a repeat by the same side changes nothing; the other side's CONFIRM, with the
lock's record standing, enters RELEASE with a 60 s unlock window and the hatch's claim on the lock, and without it ends
the exchange (R169, R171). In any other state it is answered BAD_STATE. -/
def Obligations.TwoConfirmationsOpenTheHatch : Prop :=
  ∀ (s : State) (it : RingItem) (h : Hatch) (side : Side) (z : Nat) (g : HandoverGroup),
    s.offersTerminal it 0x43#8 h side z g → it.payload = [] →
    let e := s.engine h
    (e.state = .confirm → e.first = none →
        exec .confirm s
          = .next ((s.popRing.setEngine h { e with first := some side, confirmTimer := some 3000 }).answerResult h it.src
              .accepted))
      ∧ (e.state = .confirm → e.first = some side → exec .confirm s = .next (s.popRing.answerResult h it.src .accepted))
      ∧ (∀ f l, e.state = .confirm → e.first = some f → f ≠ side → s.lock g.lock = some l →
          ∃ t u : State, exec .confirm s = .next t ∧ t = u.answerResult h it.src .accepted
            ∧ t.engine h = { e with state := .release, first := none, confirmTimer := none, openTimer := none,
                                    doorOpened := false, unlockTimer := some 6000 }
            ∧ (∀ k, k ≠ h → t.engine k = s.engine k) ∧ t.nt = s.nt ∧ t.zt = s.zt ∧ t.lu = s.lu ∧ t.cu = s.cu
            ∧ t.cat = s.cat ∧ t.pt = s.pt ∧ t.cs = s.cs
            ∧ ∃ l', t.lock g.lock = some l' ∧ l'.claims = l.claims.setHandover h true)
      ∧ (∀ f, e.state = .confirm → e.first = some f → f ≠ side → s.lock g.lock = none →
          ∃ t, exec .confirm s = .next t ∧ t.engine h = Engine.idle ∧ (∀ k, k ≠ h → t.engine k = s.engine k)
            ∧ t.nt = s.nt ∧ t.zt = s.zt ∧ t.lu = s.lu ∧ t.cu = s.cu ∧ t.pt = s.pt ∧ t.cs = s.cs)
      ∧ (e.state ≠ .confirm → exec .confirm s = .next (s.popRing.answerResult h it.src .badState))

/-- CANCEL aborts an exchange whose door has not been opened, and the engine is IDLE (R179, R182); else it is answered
BAD_STATE. The open timer and the unlock window abort as well (R173, R179), and the intake timer commits with cause
INTAKE_TIMEOUT, its list STAGING with the requirement of the staging zone (R176, R178). An abort
makes each cartridge of the manifest PICKED again with its order and removes the hatch's claim on the lock (R182). The
confirm window drops the first confirmation (R170). A fire event aborts an exchange whose door has not been opened, with cause
FIRE, commits an INTAKE with its list STAGING, and else changes nothing (R174, R180). A timer that has not run out does not
expire. -/
def Obligations.ExchangesEndIdle : Prop :=
  ∀ (s : State) (it : RingItem) (h : Hatch) (side : Side) (z : Nat) (g : HandoverGroup),
    let e := s.engine h
    let ended (t : State) : Prop := t.engine h = Engine.idle ∧ (∀ k, k ≠ h → t.engine k = s.engine k)
      ∧ t.nt = s.nt ∧ t.zt = s.zt ∧ t.lu = s.lu ∧ t.cu = s.cu ∧ t.cs = s.cs
    let aborted (t : State) : Prop :=
      (∀ i c, i ∈ e.list → s.cartridge i = some c → t.cartridge i = some { c with state := .picked, hatch := none })
        ∧ (∀ i, i ∉ e.list → t.cartridge i = s.cartridge i)
        ∧ (∀ i c n o, i ∈ e.list → s.cartridge i = some c → c.order = some n → s.order n = some o → o.state = .manifested →
            ∃ o', t.order n = some o' ∧ o'.state = .picked ∧ o'.courier = o.courier)
        ∧ (∀ y q l, s.hatchZone h = some (y, q) → s.lock q.lock = some l →
            ∃ l', t.lock q.lock = some l' ∧ l'.claims = l.claims.setHandover h false)
    let stagedIn (t : State) : Prop :=
      (∀ i c, i ∈ e.list → s.cartridge i = some c → ∃ c', t.cartridge i = some c' ∧ c'.state = .staging
          ∧ c'.staging = some g.staging ∧ c'.acclim = some (s.acclimRequirement g.staging e.caseTemp))
        ∧ (∀ i, i ∉ e.list → t.cartridge i = s.cartridge i)
    (s.offersTerminal it 0x44#8 h side z g → it.payload = [] →
      ((e.state = .opened ∨ e.state = .scanning ∨ e.state = .confirm ∨ (e.state = .release ∧ e.doorOpened = false)) →
          ∃ t, exec .cancel s = .next t ∧ ended t ∧ t.pt = s.pt ∧ aborted t)
        ∧ (e.state = .idle ∨ e.state = .intake ∨ (e.state = .release ∧ e.doorOpened = true) →
            exec .cancel s = .next (s.popRing.answerResult h it.src .badState)))
      ∧ (e.openTimer = some 0 → ∃ t, exec (.openTimerExpiry h) s = .next t ∧ ended t ∧ t.pt = s.pt ∧ aborted t)
      ∧ (e.unlockTimer = some 0 → ∃ t, exec (.unlockWindowExpiry h) s = .next t ∧ ended t ∧ t.pt = s.pt ∧ aborted t)
      ∧ (e.intakeTimer = some 0 →
          let t := s.commitIn h .intakeTimeout
          exec (.intakeTimerExpiry h) s = .next t ∧ ended t ∧ (s.hatchZone h = some (z, g) → stagedIn t))
      ∧ (e.confirmTimer = some 0 →
          exec (.confirmWindowExpiry h) s = .next (s.setEngine h { e with first := none, confirmTimer := none }))
      ∧ (e.openTimer ≠ some 0 → exec (.openTimerExpiry h) s = .next s)
      ∧ (e.unlockTimer ≠ some 0 → exec (.unlockWindowExpiry h) s = .next s)
      ∧ (e.intakeTimer ≠ some 0 → exec (.intakeTimerExpiry h) s = .next s)
      ∧ (e.confirmTimer ≠ some 0 → exec (.confirmWindowExpiry h) s = .next s)
      ∧ (let t := s.engineFire h
        (e.state = .opened ∨ e.state = .scanning ∨ e.state = .confirm ∨ (e.state = .release ∧ e.doorOpened = false) →
            t = s.abortExchange h .fireAbort ∧ ended t ∧ t.pt = s.pt ∧ aborted t)
          ∧ (e.state = .idle ∨ (e.state = .release ∧ e.doorOpened = true) → t = s)
          ∧ (e.state = .intake → s.hatchZone h = some (z, g) →
              t = s.commitIn h .fireCommit ∧ ended t ∧ stagedIn t))

/-- A hatch lock's door in RELEASE: OPEN sets the mark and stops the unlock window (R172); CLOSED after the mark makes the
outbound commit of R177, whose engine is then IDLE, and takes an inbound exchange to INTAKE with its timer (R174). Under
FIRE_ACTIVE or with the hatch zone CONFIRMED the engine that has entered INTAKE commits at once with cause FIRE, is IDLE and
its list STAGING; with the list empty, as R174 has it, that is the commit of R178 of the state before, wherever the lock
table has its form (an invariant, EveryStepKeepsFormAndCapacity). In each of the three the hatch's claim on the lock is
removed and no other claim, and the other engine stands (R174, R177). CLOSED before the mark changes nothing. LA hands the
engine a report that changes the door of its lock (R58, R172). -/
def Obligations.DoorCompletesTheExchange : Prop :=
  (∀ (s : State) (h : Hatch) (z : Nat) (g : HandoverGroup), (s.engine h).state = .release →
    s.hatchZone h = some (z, g) →
    let e := s.engine h
    let t := s.engineDoor h .closed
    let intake := (s.dropHandoverClaim h).setEngine h { e with state := .intake, intakeTimer := some 60000 }
    let fire : Prop := s.fz.fireActive = true ∨ (s.fire z).state = .confirmed
    let unclaimed : Prop := (∀ k, k ≠ h → t.engine k = s.engine k)
      ∧ ∀ l, s.lock g.lock = some l → ∃ l', t.lock g.lock = some l' ∧ l'.claims = l.claims.setHandover h false
    (s.engineDoor h .opened = s.setEngine h { e with doorOpened := true, unlockTimer := none })
      ∧ (e.doorOpened = false → t = s)
      ∧ (e.doorOpened = true → e.direction = some .out → t = s.commitOut h ∧ t.engine h = Engine.idle ∧ unclaimed)
      ∧ (e.doorOpened = true → e.direction = some .inward → ¬ fire →
          t = intake ∧ t.engine h = { e with state := .intake, intakeTimer := some 60000 } ∧ unclaimed)
      ∧ (e.doorOpened = true → e.direction = some .inward → fire →
          t = intake.commitIn h .fireCommit
            ∧ (e.list = [] → Table.wf s.la.locks = true → t = s.commitIn h .fireCommit)
            ∧ t.engine h = Engine.idle ∧ unclaimed
            ∧ (∀ i c, i ∈ e.list → s.cartridge i = some c → ∃ c', t.cartridge i = some c' ∧ c'.state = .staging
                ∧ c'.staging = some g.staging ∧ c'.acclim = some (s.acclimRequirement g.staging e.caseTemp))
            ∧ (∀ i, i ∉ e.list → t.cartridge i = s.cartridge i)))
  ∧ (∀ (s : State) (it : RingItem) (n : NodeEntry) (l : Lock) (h : Hatch), s.offers it 0x30#8 n → s.lock it.src = some l →
      s.hatchOfLock it.src = some h →
      (it.payload = [0x01#8] → l.door ≠ .opened →
          exec .doorState s
            = .next ((s.popRing.setLock it.src { l with door := .opened, doorTimer := some 12000, heldMark := false }).engineDoor
                h .opened))
        ∧ (it.payload = [0x02#8] → l.door ≠ .closed →
            exec .doorState s
              = .next ((s.popRing.setLock it.src { l with door := .closed, doorTimer := none }).engineDoor h .closed)))

/-- An outbound commit hands its manifest out: each cartridge AWAY with the engine's courier and the due-back of the loan
period, saturating, its order closed; the courier's held count rises by the manifest's length; where each cartridge has an
open order of that courier, each its own, the sum of held count and open orders is unchanged (R149, R177). Every other
cartridge and order number is as before. -/
def Obligations.OutboundCommitHandsOut : Prop :=
  ∀ (s : State) (h : Hatch) (id k : Nat) (p : Party) (cf : CourierFields),
    let m := (s.engine h).list
    (s.engine h).courier = some id → m.Nodup → (∀ i ∈ m, (s.cartridge i).isSome = true) →
    s.partyKey id = some k → Table.get s.pt.parties k = some p → p.id = id → p.courier = some cf →
    Table.wf s.pt.parties = true →
    let t := s.commitOut h
    (∀ i c, i ∈ m → s.cartridge i = some c →
        t.cartridge i
            = some { c with state := .away, courier := some id, order := none, hatch := none, overdue := false
                            dueBack := some (min (s.ti.clock + cf.loan * 86400) 4294967295) }
          ∧ ∀ n, c.order = some n → t.order n = none)
      ∧ (∀ i, i ∉ m → t.cartridge i = s.cartridge i)
      ∧ (∀ n o, s.order n = some o → (∀ i ∈ m, (s.cartridge i).bind (·.order) ≠ some n) →
          ∃ o', t.order n = some o' ∧ o'.courier = o.courier)
      ∧ t.heldCount id = cf.held + m.length ∧ t.engine h = Engine.idle
      ∧ ((∀ i ∈ m, ∃ n o, (s.cartridge i).bind (·.order) = some n ∧ s.order n = some o ∧ o.courier = id) →
          (s.ol.orders.map (·.number)).Nodup → (m.map (fun i => (s.cartridge i).bind (·.order))).Nodup →
          t.courierSum id = s.courierSum id)

/-! ## The trunk -/

/-- A frame whose check matches and whose kind is DIRECTIVE is placed at the tail of the ingress while it holds fewer
than 4, and an idle TI takes it within the same event and reads the credential, the code store and, for a PASS_DOWN, the filter (R39,
R187, R189, R190), to be decided by its own command (that it stands undecided until then is the model's choice, log 3); it is answered BUSY where the
ingress is full and fewer than 7 replies wait, and else discarded (R186 to R188). A frame that fails, or that is of another
kind, changes nothing. A frame longer than 600 is not taken, nor are its bytes until a gap of 10 byte-times; a byte timeout
discards the frame and nothing else (R186). -/
def Obligations.FramesArriveOrAreDiscarded : Prop :=
    (∀ (s : State) (f : Frame), s.ti.carrier = true → s.ti.frameTail = false → f.body.length ≤ 600 →
       let d : Directive := { tag := f.tag, body := f.body }
       let read (h : Directive) : Taking :=
         { verified := decide (s.ti.credential = .verified), cs := s.cs, filter := s.passDownFilter h.body }
       let good := frameCheckMatches f = true ∧ f.kind = 0x01#8
       let idle := s.ti.inHand = none ∧ s.ti.replies.length < 8 ∧ s.ti.restartPending = false
       (good → s.ti.ingress = [] → idle →
           exec (.frameReceived f) s = .next { s with ti := { s.ti with
             inHand := some (.deciding d (read d)) } })
         ∧ (good → s.ti.ingress.length < 4 → ¬ idle →
             exec (.frameReceived f) s = .next { s with ti := { s.ti with ingress := s.ti.ingress ++ [d] } })
         ∧ (∀ h l, good → s.ti.ingress = h :: l → l.length < 3 → idle →
             exec (.frameReceived f) s = .next { s with ti := { s.ti with
               ingress := l ++ [d], inHand := some (.deciding h (read h)) } })
         ∧ (good → 4 ≤ s.ti.ingress.length → s.ti.replies.length < 7 →
             exec (.frameReceived f) s = .next (s.reply d .busy .empty))
         ∧ (good → 4 ≤ s.ti.ingress.length → 7 ≤ s.ti.replies.length → exec (.frameReceived f) s = .next s)
         ∧ (¬ good → exec (.frameReceived f) s = .next s))
  ∧ (∀ (s : State) (f : Frame),
       exec .frameByteTimeout s = .next { s with ti := { s.ti with frameTail := false } }
         ∧ (s.ti.carrier = true → exec .frameLengthAbove600 s = .next { s with ti := { s.ti with frameTail := true } })
         ∧ (s.ti.frameTail = true → f.gap < 10 → exec (.frameReceived f) s = .next s))

/-- The transmitter sends STARTUP as the first frame after a reset (R202), then the oldest reply first, which leaves its
list when it has been sent, and else the head of the notice queue, which leaves it at the start (R188, R204). Where the
reply was the one that kept TI from the head of the ingress, TI takes it within the same event (R187, R188); its own
command decides it (the model's choice, log 3). The reply of a RESTART phase 2 is followed by the reset with cause RESTART,
of every block (R200, R202); that the commands that wait, the raw levels and the carrier are kept is the model's choice
(log 6, 20). -/
def Obligations.RepliesGoBeforeNotices : Prop :=
  ∀ (s : State),
    (s.ti.carrier = true → s.ti.sending = none →
      (∀ n ns c b, s.ti.notices = n :: ns → n.body = .startup c b →
          exec .trunkSendStart s = .next { s with ti := { s.ti with sending := some (.notice n), notices := ns } })
        ∧ (∀ r rs, s.ti.replies = r :: rs → (∀ n ∈ s.ti.notices, ∀ c b, n.body ≠ .startup c b) →
            exec .trunkSendStart s = .next { s with ti := { s.ti with sending := some (.reply r) } })
        ∧ (∀ n ns, s.ti.replies = [] → s.ti.notices = n :: ns →
            exec .trunkSendStart s = .next { s with ti := { s.ti with sending := some (.notice n), notices := ns } }))
      ∧ (∀ n, s.ti.sending = some (.notice n) →
          exec .trunkSendComplete s = .next { s with ti := { s.ti with sending := none } })
      ∧ (∀ r rs, s.ti.sending = some (.reply r) → s.ti.replies = r :: rs → r.restarts = false →
          (s.ti.inHand ≠ none ∨ s.ti.ingress = [] ∨ 8 ≤ rs.length ∨ s.ti.restartPending = true →
              exec .trunkSendComplete s = .next { s with ti := { s.ti with sending := none, replies := rs } })
            ∧ (∀ h l, s.ti.inHand = none → s.ti.ingress = h :: l → rs.length < 8 → s.ti.restartPending = false →
                exec .trunkSendComplete s = .next { s with ti := { s.ti with
                  sending := none, replies := rs, ingress := l
                  inHand := some (.deciding h (s.reads h)) } }))
      ∧ (∀ r, s.ti.sending = some (.reply r) → r.restarts = true →
          let causes : ResetCauses := { s.ti.causes with restart := true }
          ∃ t, exec .trunkSendComplete s = .next t
            ∧ t = { State.reset with
                    pending := s.pending
                    lu := { State.reset.lu with raw := s.lu.raw }
                    cs := t.cs
                    ti := { State.reset.ti with
                            causes := causes, carrier := s.ti.carrier
                            notices := [{ cls := 3, tag := 0#16, body := .startup causes (!t.cs.checkOk) }] } }
            ∧ (s.cs.writing = none → t.cs = s.cs)
            ∧ (∀ n, s.cs.writing = some n → t.cs.checkOk = false ∧ t.cs.writing = none))

/-- The loss of the carrier makes the credential UNVERIFIED, disarms a RESTART and ends the frame being sent, replies and
notices kept, the reply being sent in its list (R189, R200, R205; that it stays there is the model's choice, log 21). Its
return leaves the credential UNVERIFIED, and changes nothing else (R205). That a loss without a carrier and a return with one
change nothing is the model's choice (log 1: the spec knows no such event). -/
def Obligations.CarrierLossEndsTheSession : Prop :=
  ∀ s : State,
    (s.ti.carrier = true → ∃ t, exec .carrierLoss s = .next t ∧ t.ti.credential = .unverified
        ∧ t.ti.restartArmed = false ∧ t.ti.sending = none ∧ t.ti.replies = s.ti.replies ∧ t.ti.notices = s.ti.notices
        ∧ t.ti.noticesLost = s.ti.noticesLost ∧ t.ti.inHand = s.ti.inHand ∧ t.ti.carrier = false ∧ t = { s with ti := t.ti })
      ∧ (s.ti.carrier = false → exec .carrierLoss s = .next s)
      ∧ (s.ti.carrier = false →
          exec .carrierReturn s = .next { s with ti := { s.ti with carrier := true, credential := .unverified } })
      ∧ (s.ti.carrier = true → exec .carrierReturn s = .next s)

/-- A posted notice takes the next tag whether or not it finds a place; in a queue with room it stands after every notice
of its class and above, and below them none moves (R203, R204). In a full queue the newest of the lowest class gives way
to a higher class, or the posted notice is discarded, and a loss is counted (R204). -/
def Obligations.NoticesKeepTheirOrder : Prop :=
  ∀ (s : State) (b : NoticeBody),
    let n : Notice := { cls := s.noticeClass (noticeKind b), tag := s.ti.noticeTag, body := b }
    (s.post b).ti.noticeTag = s.ti.noticeTag + 1#16
      ∧ (∀ above below, s.ti.notices = above ++ below → s.ti.notices.length < 32 → (∀ x ∈ above, n.cls ≤ x.cls) →
          (∀ x ∈ below, x.cls < n.cls) →
          (s.post b).ti.notices = above ++ n :: below ∧ (s.post b).ti.noticesLost = s.ti.noticesLost)
      ∧ (∀ kept low, s.ti.notices = kept ++ [low] → 32 ≤ s.ti.notices.length → n.cls ≤ low.cls →
          (s.post b).ti.notices = s.ti.notices ∧ (s.post b).ti.noticesLost = min (s.ti.noticesLost + 1) 255)
      ∧ (∀ above below low, s.ti.notices = above ++ below ++ [low] → 32 ≤ s.ti.notices.length → low.cls < n.cls →
          (∀ x ∈ above, n.cls ≤ x.cls) → (∀ x ∈ below, x.cls < n.cls) →
          (s.post b).ti.notices = above ++ n :: below ∧ (s.post b).ti.noticesLost = min (s.ti.noticesLost + 1) 255)

/-! ## Directives -/

/-- A directive taken while the credential was UNVERIFIED or MISMATCH, other than IDENTIFY, CHECK_CODE and READ_STATUS, is
refused UNVERIFIED with no other check, and changes nothing else, an armed RESTART included (R189). Shown for each
directive by its code, for both rows of RESTART, and for a code outside the directive set. That the reply is empty is the model's choice (log 50). -/
def Obligations.UnverifiedDirectivesAreRefused : Prop :=
  ∀ (s : State) (d : Directive), s.underDecision = some (d, false) →
    let refusal : State := ({ s with ti := { s.ti with inHand := none } }).conclude d .unverified .empty
    (∀ p ∈ ([(Instr.setCode, 0x03#8), (.clearStatus, 0x05#8), (.setClock, 0x06#8), (.loadSegment, 0x10#8),
        (.readEntry, 0x11#8), (.clearTable, 0x12#8), (.protect, 0x13#8), (.unprotect, 0x14#8), (.order, 0x20#8),
        (.cancelOrder, 0x21#8), (.inspectClear, 0x22#8), (.fireReset, 0x30#8), (.isolate, 0x31#8), (.restore, 0x32#8),
        (.maintUnlock, 0x33#8), (.passDown, 0x40#8), (.queryNode, 0x41#8)] : List (Instr × Byte)),
        d.body.head? = some p.2 → exec p.1 s = .next refusal)
      ∧ (d.body = [0x50#8, 0x02#8] → exec .restartPhase2 s = .next refusal)
      ∧ (d.body.head? = some 0x50#8 → d.body ≠ [0x50#8, 0x02#8] → exec .restartPhase1 s = .next refusal)
      ∧ (∀ c f, d.body = c :: f → c ∉ directiveCodes → exec .unknownDirective s = .next refusal)

/-- CHECK_CODE: every code matches where the store was blank when TI took the directive, else the code it held then, whatever
CS holds since; the credential becomes VERIFIED or MISMATCH, and the reply carries it (R190). SET_CODE starts a code write, or is BUSY while one is in progress; at its
completion the store holds the new code (R191). -/
def Obligations.CodeIsCheckedAndWritten : Prop :=
  ∀ (s : State) (d : Directive) (code : List Byte) (read : Taking), code.length = 6 →
    let held := read.cs
    let s1 := s.taken
    let blank := held.checkOk = false ∨ held.code = [0#8, 0#8, 0#8, 0#8, 0#8, 0#8]
    let cred (c : Credential) : State := { s1 with ti := { s1.ti with credential := c } }
    (held.code.length = 6 → s.ti.inHand = some (.deciding d read) → d.body = 0x02#8 :: code →
        (blank ∨ code = held.code →
            ∃ b, (b = true ↔ blank) ∧ exec .checkCode s = .next ((cred .verified).conclude d .ok (.credential .verified b)))
          ∧ (¬ blank → code ≠ held.code →
              exec .checkCode s = .next ((cred .mismatch).conclude d .mismatch (.credential .mismatch false))))
      ∧ (s.hasTakenVerified d → d.body = 0x03#8 :: code →
          (s.cs.writing = none →
              exec .setCode s = .next (({ s1 with cs := { s.cs with writing := some code } }).conclude d .ok .empty))
            ∧ (∀ w, s.cs.writing = some w → exec .setCode s = .next (s1.conclude d .busy .empty)))
      ∧ (s.cs.writing = some code →
          exec .codeWriteCompletion s = .next { s with cs := { code := code, checkOk := true, writing := none } })

/-- CLEAR_STATUS clears the latch, the last load error, the causes and the losses and nothing else (R201). SET_CLOCK sets
the clock, marks it set and answers with the clock before (R199). PROTECT and UNPROTECT set and clear one table's flag
(R196). -/
def Obligations.StatusClockAndProtectionChange : Prop :=
  ∀ (s : State) (d : Directive) (b0 b1 b2 b3 : Byte) (t : TableId), s.hasTakenVerified d →
    let s1 := s.taken
    (d.body = [0x05#8] →
        exec .clearStatus s
          = .next (({ s1 with ti := { s1.ti with
              latch := false, lastLoadError := none, noticesLost := 0
              causes := { powerOn := false, pin := false, supplyLow := false, restart := false } } }).conclude d .ok .empty))
      ∧ (d.body = [0x06#8, b0, b1, b2, b3] →
          exec .setClock s
            = .next (({ s1 with ti := { s1.ti with
                clock := b0.toNat + 256 * (b1.toNat + 256 * (b2.toNat + 256 * b3.toNat)), clockSet := true } }).conclude d .ok
                (.clock s.ti.clock)))
      ∧ (d.body = [0x13#8, b0] → tableOf b0 = some t →
          exec .protect s
            = .next (({ s1 with ti := { s1.ti with protect := s.ti.protect.change t true } }).conclude d .ok .empty))
      ∧ (d.body = [0x14#8, b0] → tableOf b0 = some t →
          exec .unprotect s
            = .next (({ s1 with ti := { s1.ti with protect := s.ti.protect.change t false } }).conclude d .ok .empty))

/-- READ_ENTRY changes nothing but the reply: an index outside the table is RANGE, an order number no open order holds
is NOT_FOUND, and else the reply carries the place (R198). IDENTIFY answers with the identification string and whether
the store is blank (R198); READ_STATUS with the status record (R201), in every credential state. QUERY_NODE: RANGE,
NOT_FOUND, or the entry as it stood, its line-error count and RANGE mark then cleared (R38). -/
def Obligations.ReadsAnswerAndChangeLittle : Prop :=
    (∀ (s : State) (d : Directive) (b i0 i1 : Byte), s.hasTakenVerified d →
       d.body = [0x11#8, b, i0, i1] →
       let s1 := s.taken
       let i := i0.toNat + 256 * i1.toNat
       (∀ t, tableOf b = some t → lastIndex t < i → exec .readEntry s = .next (s1.conclude d .range .empty))
         ∧ (∀ t, tableOf b = some t → i ≤ lastIndex t → exec .readEntry s = .next (s1.conclude d .ok (s.entryBody t i)))
         ∧ (b = 7#8 → s.order i = none → exec .readEntry s = .next (s1.conclude d .notFound .empty))
         ∧ (∀ o, b = 7#8 → s.order i = some o → exec .readEntry s = .next (s1.conclude d .ok (.order o)))
         ∧ (tableOf b = none → b ≠ 7#8 → exec .readEntry s = .next (s1.conclude d .badForm .empty)))
  ∧ (∀ (s : State) (d : Directive), s.hasTaken d →
       let s1 := s.taken
       (d.body = [0x01#8] →
           exec .identify s = .next (s1.conclude d .ok (.identity (s.zt.site.map (·.ident)) s.cs.blank)))
         ∧ (d.body = [0x04#8] → exec .readStatus s = .next (s1.conclude d .ok (.status s1.statusRecord))))
  ∧ (∀ (s : State) (d : Directive) (b : Byte), s.hasTakenVerified d → d.body = [0x41#8, b] →
       let s1 := s.taken
       (addressInRange b.toNat = false → exec .queryNode s = .next (s1.conclude d .range .empty))
         ∧ (addressInRange b.toNat = true → s.node b.toNat = none →
             exec .queryNode s = .next (s1.conclude d .notFound .empty))
         ∧ (∀ e, addressInRange b.toNat = true → s.node b.toNat = some e →
             exec .queryNode s
               = .next ((s1.setNode b.toNat { e with lineErrors := 0, rangeMark := false }).conclude d .ok (.queried e))))

/-- A LOAD_SEGMENT whose checks pass, in the order of R193, is applied whole and answered with its count; one that fails
changes no table, sets the latch with the first failure and is answered with the table and the offset. While the latch is
set it is refused and sets nothing: BAD_FORM where it is malformed, RANGE where its head is out of range, and else LATCHED
(R193 to R195; that BAD_FORM and RANGE come before LATCHED is the model's reading, log 10). BAD_FORM is given for an unknown
table, ORDERS among them, for a length other than its count and table give, and, without setting the latch, for a body too
short to hold a table id (R192, R193, R195), whose reply is empty by the model's choice (log 50). A catalogue segment is handed to CAT (R142). An entry that is
placed has its consequences: a NODE entry stands as loaded, a detector that leaves its zone leaves its sets, and a new LOCK
is commanded LOCKED (R26, R53, R101); a ZONE entry stands, a new climate record is empty and the conditions are computed
with no change of fire state (R46, R60); a LINE takes the raw level as its settled level, its timer stopped (R48); a
PARTY keeps the held count of the party that stood there (R150). -/
def Obligations.LoadSegmentIsAppliedWholeOrNotAtAll : Prop :=
    (∀ (s : State) (d : Directive) (b : Byte) (f : List Byte) (t : TableId) (g : Segment),
      s.hasTakenVerified d → d.body = 0x10#8 :: b :: f → tableOf b = some t → parseSegment t f = some g →
      let s1 := s.taken
      let entries := cutEntries (entrySize t) g.count g.entries
      let refused (r : Result) (off : Option Nat) : State :=
        ({ s1 with ti := { s1.ti with
            latch := true
            lastLoadError := some { directive := 0x10#8, table := b, offset := off, code := r } } }).conclude d r
          (.loadRefused b off)
      (s.ti.latch = true →
          (s.judgeSegment t g = some .latched ∨ s.judgeSegment t g = some .range)
            ∧ (∀ r, s.judgeSegment t g = some r → exec .loadSegment s = .next (s1.conclude d r (.loadRefused b none))))
        ∧ (∀ r, s.ti.latch = false → s.judgeSegment t g = some r → exec .loadSegment s = .next (refused r none))
        ∧ (t = .catalogue → s.judgeSegment t g = none →
            exec .loadSegment s
              = .next { s1 with ti := { s1.ti with inHand := some (.catalogueLoad d g.first g.count g.entries) } })
        ∧ (∀ s2, t ≠ .catalogue → s.judgeSegment t g = none → State.loadEntries t g.first 0 entries s1 = .ok s2 →
            exec .loadSegment s = .next (s2.conclude d .ok (.loaded g.count)))
        ∧ (∀ off r, t ≠ .catalogue → s.judgeSegment t g = none →
            State.loadEntries t g.first 0 entries s1 = .error (off, r) → exec .loadSegment s = .next (refused r (some off))))
  ∧ (∀ (s : State) (d : Directive) (b : Byte) (f : List Byte), s.hasTakenVerified d →
      let s1 := s.taken
      let noted : State := if s.ti.latch then s1 else
        { s1 with ti := { s1.ti with
            latch := true
            lastLoadError := some { directive := 0x10#8, table := b, offset := none, code := .badForm } } }
      (d.body = 0x10#8 :: b :: f → (tableOf b = none ∨ ∃ t, tableOf b = some t ∧ parseSegment t f = none) →
          exec .loadSegment s = .next (noted.conclude d .badForm (.loadRefused b none)))
        ∧ (d.body = [0x10#8] → exec .loadSegment s = .next (s1.conclude d .badForm .empty)))
  ∧ (∀ (t : TableId) (i0 i1 c : Byte) (f : List Byte),
      tableOf 7#8 = none ∧ (parseSegment t (i0 :: i1 :: c :: f) = none ↔ f.length ≠ c.toNat * entrySize t + 2))
  ∧ (∀ (s : State) (t : TableId) (g : Segment),
      s.judgeSegment t g
        = if g.count = 0 ∨ 16 < g.count ∨ lastIndex t < g.first + g.count - 1 then some .range
          else if s.ti.latch = true then some .latched
          else if s.ti.protect.of t = true then some .protected_
          else if segmentSum g.entries = g.checksum then none else some .checksum)
  ∧ (∀ (s : State) (i : Nat) (e : List Byte) (n : NodeEntry), parseNode e = .place n → s.judgeNode (i + 1) (some n) = none →
      ∃ u : State, s.loadEntry .node i e = .ok u ∧ u.node (i + 1) = some n ∧ (∀ a, a ≠ i + 1 → u.node a = s.node a)
        ∧ (∀ o, s.node (i + 1) = some o → o.cls = .detector → (n.cls ≠ .detector ∨ n.zone ≠ o.zone) →
            i + 1 ∉ (u.fire o.zone).alarm ∧ i + 1 ∉ (u.fire o.zone).knock)
        ∧ (s.node (i + 1) = none → n.cls = .lock →
            ∃ l, u.lock (i + 1) = some l ∧ l.commanded = .locked ∧ l.door = .unknown ∧ l.fault = false))
  ∧ (∀ (s : State) (z : Nat) (e : List Byte) (x : ZoneEntry), s.shaped = true → z < 16 → parseZone e = .place x →
      s.judgeZone z (some x) = none →
      ∃ u : State, s.loadEntry .zone z e = .ok u ∧ u.zone z = some x ∧ (∀ y, y ≠ z → u.zone y = s.zone y)
        ∧ (∀ y < 16, u.conditions y = u.computeConditions y) ∧ (∀ y, (u.fire y).state = (s.fire y).state)
        ∧ (s.climateGroup z = none → x.climate.isSome = true → u.climate z = Climate.empty)
        ∧ (∀ y, y ≠ z → u.climate y = s.climate y))
  ∧ (∀ (s : State) (n : Nat) (e : List Byte) (l : LineEntry), parseLine (s.lu.raw.getD n .low) e = .place l →
      s.judgeLine n (some l) = none →
      ∃ u : State, s.loadEntry .line n e = .ok u ∧ Table.get u.lu.lines n = some l ∧ l.settled = s.lu.raw.getD n .low ∧ l.timer = none
        ∧ (∀ z < 16, u.conditions z = u.computeConditions z) ∧ u = { s with lu := u.lu } ∧ u.lu.release = s.lu.release)
  ∧ (∀ (s : State) (k : Nat) (e : List Byte) (p : Party), parseParty e = .place p → s.judgeParty k (some p) = none →
      ∃ (u : State) (q : Party), s.loadEntry .party k e = .ok u ∧ u = { s with pt := u.pt } ∧ Table.get u.pt.parties k = some q
        ∧ q.id = p.id ∧ q.active = p.active ∧ q.courier.isSome = p.courier.isSome
        ∧ (∀ o c f, Table.get s.pt.parties k = some o → o.id = p.id → p.courier = some c → o.courier = some f →
            q.courier = some { c with held := f.held })
        ∧ (∀ c, Table.get s.pt.parties k = none → p.courier = some c → q.courier = some c ∧ c.held = 0))

/-- CLEAR_TABLE, not latched, of a table that is not protected: SITE loses its entry and asserts the fault output (R47,
R52, R197); NODE, ZONE, LINE and PARTY are emptied, or refused as R197 says; the catalogue is handed to CAT (R142). A table
that is protected is refused PROTECTED and a complement that does not match BAD_FORM, and each sets the latch (R195 to
R197). -/
def Obligations.ClearTableEmptiesTheTable : Prop :=
  ∀ (s : State) (d : Directive) (b : Byte) (t : TableId), s.hasTakenVerified d →
    s.ti.latch = false → tableOf b = some t →
    let s1 := s.taken
    let inMove := (s.engine .h0).state ≠ .idle ∨ (s.engine .h1).state ≠ .idle
    let claimed := ∃ p ∈ s.la.locks, p.2.claims.any = true
    let terminalBusy := ∃ h, (s.engine h).state ≠ .idle
      ∧ ((s.terminal .hatchReader h).isSome = true ∨ (s.terminal .courierTerminal h).isSome = true)
    let inFire (z : Nat) := s.quietZone z = false
    let refused (r : Result) : Prop := exec .clearTable s = .next (s1.refuseClear d b r).takeNext
    (d.body = [0x12#8, b, ~~~b] → t = .site → s.ti.protect.site = false →
        exec .clearTable s
          = .next (({ s1 with zt := { s.zt with site := none }, lu := { s.lu with fault := true } }).conclude d .ok .empty))
      ∧ (d.body = [0x12#8, b, ~~~b] → t = .catalogue → s.ti.protect.catalogue = false →
          exec .clearTable s = .next { s1 with ti := { s1.ti with inHand := some (.catalogueClear d) } })
      ∧ (d.body = [0x12#8, b, ~~~b] → t = .node → s.ti.protect.node = false →
          (claimed ∨ terminalBusy → refused .inUse)
            ∧ (¬ claimed → ¬ terminalBusy → (∃ p ∈ s.nt.nodes, p.2.fireRelevant = true ∧ inFire p.2.zone) → refused .zoneActive)
            ∧ (¬ claimed → ¬ terminalBusy → (∀ p ∈ s.nt.nodes, p.2.fireRelevant = true → ¬ inFire p.2.zone) →
                ∃ u : State, exec .clearTable s = .next (u.conclude d .ok .empty) ∧ u.nt.nodes = [] ∧ u.zt = s.zt ∧ u.cu = s.cu
                  ∧ u.cs = s.cs))
      ∧ (d.body = [0x12#8, b, ~~~b] → t = .zone → s.ti.protect.zone = false →
          (s.cat.cartridges ≠ [] ∨ inMove → refused .inUse)
            ∧ (s.cat.cartridges = [] → ¬ inMove → (∃ z < 16, inFire z) → refused .zoneActive)
            ∧ (s.cat.cartridges = [] → ¬ inMove → (∀ z < 16, ¬ inFire z) →
                ∃ u : State, exec .clearTable s = .next (u.conclude d .ok .empty) ∧ u.zt = { s.zt with zones := [] } ∧ u.nt = s.nt
                  ∧ u.cs = s.cs))
      ∧ (d.body = [0x12#8, b, ~~~b] → t = .line → s.ti.protect.line = false →
          ((∃ p ∈ s.lu.lines, p.2.function ≠ .unused ∧ inFire p.2.zone) → refused .zoneActive)
            ∧ ((∀ p ∈ s.lu.lines, p.2.function ≠ .unused → ¬ inFire p.2.zone) →
                ∃ u : State, exec .clearTable s = .next (u.conclude d .ok .empty) ∧ u.lu.lines = [] ∧ u = { s1 with lu := u.lu }
                  ∧ u.lu.release = s.lu.release ∧ u.lu.fault = s.lu.fault ∧ u.lu.raw = s.lu.raw))
      ∧ (d.body = [0x12#8, b, ~~~b] → t = .party → s.ti.protect.party = false →
          ((∃ p ∈ s.pt.parties, p.2.courier.isSome = true ∧ 0 < s.courierSum p.2.id) ∨ inMove → refused .inUse)
            ∧ ((∀ p ∈ s.pt.parties, p.2.courier.isSome = true → s.courierSum p.2.id = 0) → ¬ inMove →
                exec .clearTable s = .next (({ s1 with pt := { s.pt with parties := [] } }).conclude d .ok .empty)))
      ∧ (d.body = [0x12#8, b, ~~~b] → s.ti.protect.of t = true → refused .protected_)
      ∧ (∀ c, d.body = [0x12#8, b, c] → c ≠ ~~~b → refused .badForm)
      ∧ ∀ r, (s.refuseClear d b r).ti.latch = (if r = .latched then s.ti.latch else true)

/-- PASS_DOWN: refused by the first line of the filter that applies to the state in which TI took it, whatever has changed
since (R39), else held in hand with its telegram queued in the DISPLAY class where there is a place (R40), or answered at
once with DROPPED. A plant node that a zone names in its class's role is OWNED in AUTO, and in MANUAL refused BAD_STATE only
where its record is SHUT. A body whose length is not that of its form is BAD_FORM (R192). -/
def Obligations.PassDownIsFilteredAndQueued : Prop :=
  (∀ (s : State) (d : Directive) (f : List Byte), s.hasTakenVerified d → d.body = 0x40#8 :: f →
    (f.length < 3 ∨ ∃ dest kind p payload, f = dest :: kind :: p :: payload ∧ payload.length ≠ p.toNat) →
    exec .passDown s = .next (s.taken.conclude d .badForm .empty))
  ∧ (∀ (u s : State) (d : Directive) (read : Taking) (dest kind p : Byte) (payload : List Byte),
    s.ti.inHand = some (.deciding d read) → read.verified = true → read.filter = (u.reads d).filter →
    d.body = 0x40#8 :: dest :: kind :: p :: payload → payload.length = p.toNat →
    let s1 := s.taken
    let e := u.node dest.toNat
    let queued : Prop :=
      (s.lif.txq.length < 24 →
          exec .passDown s
            = .next (({ s1 with ti := { s1.ti with inHand := some (.passDown d) } }).placeTx
                { cls := .display, dest := dest.toNat, kind := kind, payload := payload, origin := .passDown }))
        ∧ (24 ≤ s.lif.txq.length → exec .passDown s = .next (s1.conclude d .ok (.outcome .dropped)))
    (addressInRange dest.toNat = false ∨ kind.toNat < 192 ∨ 40 < payload.length →
        exec .passDown s = .next (s1.conclude d .range .empty))
      ∧ (addressInRange dest.toNat = true → 192 ≤ kind.toNat → payload.length ≤ 40 →
          (e = none → exec .passDown s = .next (s1.conclude d .notFound .empty))
            ∧ (∀ n, e = some n → n.cls = .lock ∨ n.cls = .suppression →
                exec .passDown s = .next (s1.conclude d .owned .empty))
            ∧ (∀ n, e = some n → n.cls = .detector →
                (u.quietZone n.zone = false → exec .passDown s = .next (s1.conclude d .badState .empty))
                  ∧ (u.quietZone n.zone = true → queued))
            ∧ (∀ n, e = some n → n.cls = .pickDisplay ∨ n.cls = .probe ∨ n.cls = .slotStrip ∨ n.cls = .hatchReader
                ∨ n.cls = .courierTerminal → queued)
            ∧ (∀ n z r g, e = some n → n.cls = .dehumidifier ∨ n.cls = .humidifier →
                u.plantZoneOf dest.toNat n.cls = some (z, r, g) →
                (g.mode = .auto → exec .passDown s = .next (s1.conclude d .owned .empty))
                  ∧ (∀ a, g.mode = .manual → u.actuator z r = some a → a.state = .shut →
                      exec .passDown s = .next (s1.conclude d .badState .empty))
                  ∧ (g.mode = .manual → (∀ a, u.actuator z r = some a → a.state ≠ .shut) → queued))
            ∧ (∀ n, e = some n → n.cls = .dehumidifier ∨ n.cls = .humidifier → u.plantZoneOf dest.toNat n.cls = none → queued)))

/-- RESTART phase 1 arms the mark, and phase 2 directly after it is accepted, neither while FIRE_ACTIVE holds (R200);
another phase is RANGE, at the row of phase 1 (the model's choice, log 16). A directive of an unknown code is BAD_FORM and
cancels the mark (R192). -/
def Obligations.RestartTakesTwoPhases : Prop :=
  ∀ (s : State) (d : Directive) (b : Byte), s.hasTakenVerified d →
    let s1 : State := { s with ti := { s.ti with inHand := none } }
    (d.body = [0x50#8, 0x01#8] → s.fz.fireActive = false →
        exec .restartPhase1 s = .next (({ s1 with ti := { s1.ti with restartArmed := true } }).conclude d .ok .empty))
      ∧ (d.body = [0x50#8, 0x01#8] → s.fz.fireActive = true →
          exec .restartPhase1 s = .next (s1.conclude d .badState .empty))
      ∧ (d.body = [0x50#8, b] → b ≠ 0x01#8 → b ≠ 0x02#8 → exec .restartPhase1 s = .next (s1.conclude d .range .empty))
      ∧ (d.body = [0x50#8, 0x02#8] → s.ti.restartArmed = false →
          exec .restartPhase2 s = .next (s1.conclude d .badState .empty))
      ∧ (d.body = [0x50#8, 0x02#8] → s.ti.restartArmed = true → s.fz.fireActive = true →
          exec .restartPhase2 s
            = .next (({ s1 with ti := { s1.ti with restartArmed := false } }).conclude d .badState .empty))
      ∧ (d.body = [0x50#8, 0x02#8] → s.ti.restartArmed = true → s.fz.fireActive = false →
          exec .restartPhase2 s
            = .next { s1 with ti := { s1.ti with
                restartArmed := false, restartPending := true
                replies := s.ti.replies ++ [{ tag := d.tag, code := 0x50#8, result := .ok, body := .empty,
                                              restarts := true }] } })
      ∧ (∀ c f, d.body = c :: f → c ∉ directiveCodes →
          exec .unknownDirective s = .next (s.taken.conclude d .badForm .empty))
end

