-- ==== Sys2Proof/Laws/State.lean ====
section
/-! SUPPORT. What each update of one record leaves alone and what it makes of its own block. -/

namespace Sys2Proof.Machine

@[simp] theorem State.setNode_frame (s : State) (a : Nat) (e : NodeEntry) :
    (s.setNode a e).pending = s.pending ∧ (s.setNode a e).lif = s.lif ∧ (s.setNode a e).zt = s.zt
      ∧ (s.setNode a e).lu = s.lu ∧ (s.setNode a e).cu = s.cu ∧ (s.setNode a e).pc = s.pc ∧ (s.setNode a e).fz = s.fz
      ∧ (s.setNode a e).la = s.la ∧ (s.setNode a e).cat = s.cat ∧ (s.setNode a e).ol = s.ol
      ∧ (s.setNode a e).pt = s.pt ∧ (s.setNode a e).he0 = s.he0 ∧ (s.setNode a e).he1 = s.he1
      ∧ (s.setNode a e).ti = s.ti ∧ (s.setNode a e).cs = s.cs := by
  refine ⟨?_, ?_, ?_, ?_, ?_, ?_, ?_, ?_, ?_, ?_, ?_, ?_, ?_, ?_, ?_⟩ <;> rfl

@[simp] theorem State.setNode_nodes (s : State) (a : Nat) (e : NodeEntry) : (s.setNode a e).nt.nodes =
    Table.put s.nt.nodes a e := rfl
@[simp] theorem State.setNode_unknownMarks (s : State) (a : Nat) (e : NodeEntry) : (s.setNode a e).nt.unknownMarks =
    s.nt.unknownMarks := rfl
@[simp] theorem State.setNode_detectorCount (s : State) (a : Nat) (e : NodeEntry) : (s.setNode a e).nt.detectorCount =
    s.nt.detectorCount := rfl
@[simp] theorem State.setNode_healthyCount (s : State) (a : Nat) (e : NodeEntry) : (s.setNode a e).nt.healthyCount =
    s.nt.healthyCount := rfl
@[simp] theorem State.setNode_faultSilent (s : State) (a : Nat) (e : NodeEntry) : (s.setNode a e).nt.faultSilent =
    s.nt.faultSilent := rfl

@[simp] theorem State.setFire_frame (s : State) (z : Nat) (f : Fire) :
    (s.setFire z f).pending = s.pending ∧ (s.setFire z f).lif = s.lif ∧ (s.setFire z f).nt = s.nt
      ∧ (s.setFire z f).zt = s.zt ∧ (s.setFire z f).lu = s.lu ∧ (s.setFire z f).cu = s.cu ∧ (s.setFire z f).pc = s.pc
      ∧ (s.setFire z f).la = s.la ∧ (s.setFire z f).cat = s.cat ∧ (s.setFire z f).ol = s.ol
      ∧ (s.setFire z f).pt = s.pt ∧ (s.setFire z f).he0 = s.he0 ∧ (s.setFire z f).he1 = s.he1
      ∧ (s.setFire z f).ti = s.ti ∧ (s.setFire z f).cs = s.cs := by
  refine ⟨?_, ?_, ?_, ?_, ?_, ?_, ?_, ?_, ?_, ?_, ?_, ?_, ?_, ?_, ?_⟩ <;> rfl

@[simp] theorem State.setFire_fire (s : State) (z : Nat) (f : Fire) : (s.setFire z f).fz.fire =
    s.fz.fire.set z f := rfl
@[simp] theorem State.setFire_fireActive (s : State) (z : Nat) (f : Fire) : (s.setFire z f).fz.fireActive =
    s.fz.fireActive := rfl
@[simp] theorem State.setFire_pendingAlert (s : State) (z : Nat) (f : Fire) : (s.setFire z f).fz.pendingAlert =
    s.fz.pendingAlert := rfl

@[simp] theorem State.setClimate_frame (s : State) (z : Nat) (c : Climate) :
    (s.setClimate z c).pending = s.pending ∧ (s.setClimate z c).lif = s.lif ∧ (s.setClimate z c).nt = s.nt
      ∧ (s.setClimate z c).zt = s.zt ∧ (s.setClimate z c).lu = s.lu ∧ (s.setClimate z c).pc = s.pc
      ∧ (s.setClimate z c).fz = s.fz ∧ (s.setClimate z c).la = s.la ∧ (s.setClimate z c).cat = s.cat
      ∧ (s.setClimate z c).ol = s.ol ∧ (s.setClimate z c).pt = s.pt ∧ (s.setClimate z c).he0 = s.he0
      ∧ (s.setClimate z c).he1 = s.he1 ∧ (s.setClimate z c).ti = s.ti ∧ (s.setClimate z c).cs = s.cs := by
  refine ⟨?_, ?_, ?_, ?_, ?_, ?_, ?_, ?_, ?_, ?_, ?_, ?_, ?_, ?_, ?_⟩ <;> rfl

@[simp] theorem State.setClimate_climate (s : State) (z : Nat) (c : Climate) : (s.setClimate z c).cu.climate =
    s.cu.climate.set z c := rfl
@[simp] theorem State.setClimate_epochTimer (s : State) (z : Nat) (c : Climate) : (s.setClimate z c).cu.epochTimer =
    s.cu.epochTimer := rfl
@[simp] theorem State.setClimate_epochs (s : State) (z : Nat) (c : Climate) : (s.setClimate z c).cu.epochs =
    s.cu.epochs := rfl

@[simp] theorem State.setLock_frame (s : State) (a : Nat) (l : Lock) :
    (s.setLock a l).pending = s.pending ∧ (s.setLock a l).lif = s.lif ∧ (s.setLock a l).nt = s.nt
      ∧ (s.setLock a l).zt = s.zt ∧ (s.setLock a l).lu = s.lu ∧ (s.setLock a l).cu = s.cu ∧ (s.setLock a l).pc = s.pc
      ∧ (s.setLock a l).fz = s.fz ∧ (s.setLock a l).cat = s.cat ∧ (s.setLock a l).ol = s.ol
      ∧ (s.setLock a l).pt = s.pt ∧ (s.setLock a l).he0 = s.he0 ∧ (s.setLock a l).he1 = s.he1
      ∧ (s.setLock a l).ti = s.ti ∧ (s.setLock a l).cs = s.cs := by
  refine ⟨?_, ?_, ?_, ?_, ?_, ?_, ?_, ?_, ?_, ?_, ?_, ?_, ?_, ?_, ?_⟩ <;> rfl

@[simp] theorem State.setLock_locks (s : State) (a : Nat) (l : Lock) : (s.setLock a l).la.locks =
    Table.put s.la.locks a l := rfl

@[simp] theorem State.setActuator_frame (s : State) (z : Nat) (r : Role) (a : Actuator) :
    (s.setActuator z r a).pending = s.pending ∧ (s.setActuator z r a).lif = s.lif ∧ (s.setActuator z r a).nt = s.nt
      ∧ (s.setActuator z r a).zt = s.zt ∧ (s.setActuator z r a).lu = s.lu ∧ (s.setActuator z r a).cu = s.cu
      ∧ (s.setActuator z r a).fz = s.fz ∧ (s.setActuator z r a).la = s.la ∧ (s.setActuator z r a).cat = s.cat
      ∧ (s.setActuator z r a).ol = s.ol ∧ (s.setActuator z r a).pt = s.pt ∧ (s.setActuator z r a).he0 = s.he0
      ∧ (s.setActuator z r a).he1 = s.he1 ∧ (s.setActuator z r a).ti = s.ti ∧ (s.setActuator z r a).cs = s.cs := by
  refine ⟨?_, ?_, ?_, ?_, ?_, ?_, ?_, ?_, ?_, ?_, ?_, ?_, ?_, ?_, ?_⟩ <;> rfl

@[simp] theorem State.setActuator_actuators (s : State) (z : Nat) (r : Role) (a : Actuator) : (s.setActuator z r a).pc.actuators =
    Table.put s.pc.actuators (actKey z r) a := rfl

@[simp] theorem State.setCartridge_frame (s : State) (i : Nat) (c : Cartridge) :
    (s.setCartridge i c).pending = s.pending ∧ (s.setCartridge i c).lif = s.lif ∧ (s.setCartridge i c).nt = s.nt
      ∧ (s.setCartridge i c).zt = s.zt ∧ (s.setCartridge i c).lu = s.lu ∧ (s.setCartridge i c).cu = s.cu
      ∧ (s.setCartridge i c).pc = s.pc ∧ (s.setCartridge i c).fz = s.fz ∧ (s.setCartridge i c).la = s.la
      ∧ (s.setCartridge i c).ol = s.ol ∧ (s.setCartridge i c).pt = s.pt ∧ (s.setCartridge i c).he0 = s.he0
      ∧ (s.setCartridge i c).he1 = s.he1 ∧ (s.setCartridge i c).ti = s.ti ∧ (s.setCartridge i c).cs = s.cs := by
  refine ⟨?_, ?_, ?_, ?_, ?_, ?_, ?_, ?_, ?_, ?_, ?_, ?_, ?_, ?_, ?_⟩ <;> rfl

@[simp] theorem State.setCartridge_cartridges (s : State) (i : Nat) (c : Cartridge) : (s.setCartridge i c).cat.cartridges =
    Table.put s.cat.cartridges i c := rfl

@[simp] theorem State.setOrder_frame (s : State) (o : Order) :
    (s.setOrder o).pending = s.pending ∧ (s.setOrder o).lif = s.lif ∧ (s.setOrder o).nt = s.nt
      ∧ (s.setOrder o).zt = s.zt ∧ (s.setOrder o).lu = s.lu ∧ (s.setOrder o).cu = s.cu ∧ (s.setOrder o).pc = s.pc
      ∧ (s.setOrder o).fz = s.fz ∧ (s.setOrder o).la = s.la ∧ (s.setOrder o).cat = s.cat ∧ (s.setOrder o).pt = s.pt
      ∧ (s.setOrder o).he0 = s.he0 ∧ (s.setOrder o).he1 = s.he1 ∧ (s.setOrder o).ti = s.ti ∧ (s.setOrder o).cs = s.cs := by
  refine ⟨?_, ?_, ?_, ?_, ?_, ?_, ?_, ?_, ?_, ?_, ?_, ?_, ?_, ?_, ?_⟩ <;> rfl

@[simp] theorem State.setOrder_orders (s : State) (o : Order) : (s.setOrder o).ol.orders =
    s.ol.orders.map (fun p => if p.number = o.number then o else p) := rfl
@[simp] theorem State.setOrder_lastNumber (s : State) (o : Order) : (s.setOrder o).ol.lastNumber =
    s.ol.lastNumber := rfl

@[simp] theorem State.setEngine_frame (s : State) (h : Hatch) (e : Engine) :
    (s.setEngine h e).pending = s.pending ∧ (s.setEngine h e).lif = s.lif ∧ (s.setEngine h e).nt = s.nt
      ∧ (s.setEngine h e).zt = s.zt ∧ (s.setEngine h e).lu = s.lu ∧ (s.setEngine h e).cu = s.cu
      ∧ (s.setEngine h e).pc = s.pc ∧ (s.setEngine h e).fz = s.fz ∧ (s.setEngine h e).la = s.la
      ∧ (s.setEngine h e).cat = s.cat ∧ (s.setEngine h e).ol = s.ol ∧ (s.setEngine h e).pt = s.pt
      ∧ (s.setEngine h e).ti = s.ti ∧ (s.setEngine h e).cs = s.cs := by
  cases h <;> (refine ⟨?_, ?_, ?_, ?_, ?_, ?_, ?_, ?_, ?_, ?_, ?_, ?_, ?_, ?_⟩ <;> rfl)

@[simp] theorem State.engine_setEngine_same (s : State) (h : Hatch) (e : Engine) : (s.setEngine h e).engine h = e := by
  cases h <;> rfl

theorem State.engine_setEngine_other (s : State) (h k : Hatch) (e : Engine) (n : k ≠ h) :
    (s.setEngine h e).engine k = s.engine k := by
  cases h <;> cases k <;> first | rfl | exact absurd rfl n

end Sys2Proof.Machine
end

