-- ==== Sys2Proof/Laws/Frames.lean ====
section
/-! SUPPORT. Frames: for each shared operation, the blocks of the state it never touches. -/

namespace Sys2Proof.Machine

/-- What each step of a fold keeps, the fold keeps. -/
theorem foldl_keeps {α β γ : Type} (g : β → γ) (f : β → α → β) (h : ∀ b a, g (f b a) = g b) (l : List α) (b : β) :
    g (l.foldl f b) = g b := by
  induction l generalizing b with
  | nil => rfl
  | cons a l ih => rw [List.foldl_cons, ih, h]

@[simp] theorem State.post_frame (s : State) (b : NoticeBody) :
    (s.post b).pending = s.pending ∧ (s.post b).lif = s.lif ∧ (s.post b).nt = s.nt ∧ (s.post b).zt = s.zt
      ∧ (s.post b).lu = s.lu ∧ (s.post b).cu = s.cu ∧ (s.post b).pc = s.pc ∧ (s.post b).fz = s.fz
      ∧ (s.post b).la = s.la ∧ (s.post b).cat = s.cat ∧ (s.post b).ol = s.ol ∧ (s.post b).pt = s.pt
      ∧ (s.post b).he0 = s.he0 ∧ (s.post b).he1 = s.he1 ∧ (s.post b).cs = s.cs := by
  refine ⟨?_, ?_, ?_, ?_, ?_, ?_, ?_, ?_, ?_, ?_, ?_, ?_, ?_, ?_, ?_⟩ <;> rfl

@[simp] theorem State.reply_frame (s : State) (d : Directive) (r : Result) (b : ReplyBody) :
    (s.reply d r b).pending = s.pending ∧ (s.reply d r b).lif = s.lif ∧ (s.reply d r b).nt = s.nt
      ∧ (s.reply d r b).zt = s.zt ∧ (s.reply d r b).lu = s.lu ∧ (s.reply d r b).cu = s.cu ∧ (s.reply d r b).pc = s.pc
      ∧ (s.reply d r b).fz = s.fz ∧ (s.reply d r b).la = s.la ∧ (s.reply d r b).cat = s.cat
      ∧ (s.reply d r b).ol = s.ol ∧ (s.reply d r b).pt = s.pt ∧ (s.reply d r b).he0 = s.he0
      ∧ (s.reply d r b).he1 = s.he1 ∧ (s.reply d r b).cs = s.cs := by
  refine ⟨?_, ?_, ?_, ?_, ?_, ?_, ?_, ?_, ?_, ?_, ?_, ?_, ?_, ?_, ?_⟩ <;> rfl

@[simp] theorem State.dropHand_frame (s : State) :
    (s.dropHand).pending = s.pending ∧ (s.dropHand).lif = s.lif ∧ (s.dropHand).nt = s.nt ∧ (s.dropHand).zt = s.zt
      ∧ (s.dropHand).lu = s.lu ∧ (s.dropHand).cu = s.cu ∧ (s.dropHand).pc = s.pc ∧ (s.dropHand).fz = s.fz
      ∧ (s.dropHand).la = s.la ∧ (s.dropHand).cat = s.cat ∧ (s.dropHand).ol = s.ol ∧ (s.dropHand).pt = s.pt
      ∧ (s.dropHand).he0 = s.he0 ∧ (s.dropHand).he1 = s.he1 ∧ (s.dropHand).cs = s.cs := by
  refine ⟨?_, ?_, ?_, ?_, ?_, ?_, ?_, ?_, ?_, ?_, ?_, ?_, ?_, ?_, ?_⟩ <;> rfl

/-- All that TI's taking can do: nothing, or with no directive in hand the head of the ingress goes into hand, with what
the credential says and CS as it stands. -/
theorem State.takeNext_cases (s : State) :
    s.takeNext = s ∨ ∃ d l, s.ti.inHand = none ∧ s.ti.ingress = d :: l ∧ s.ti.replies.length < 8
      ∧ s.ti.restartPending = false
      ∧ s.takeNext = { s with ti := { s.ti with
          ingress := l, inHand := some (.deciding d (s.reads d)) } } := by
  unfold State.takeNext
  split
  · rename_i h
    split
    · exact .inl rfl
    · rename_i d l e
      exact .inr ⟨d, l, by simpa using h.1, e, h.2.1, h.2.2, rfl⟩
  · exact .inl rfl

@[simp] theorem State.takeNext_frame (s : State) :
    (s.takeNext).pending = s.pending ∧ (s.takeNext).lif = s.lif ∧ (s.takeNext).nt = s.nt ∧ (s.takeNext).zt = s.zt
      ∧ (s.takeNext).lu = s.lu ∧ (s.takeNext).cu = s.cu ∧ (s.takeNext).pc = s.pc ∧ (s.takeNext).fz = s.fz
      ∧ (s.takeNext).la = s.la ∧ (s.takeNext).cat = s.cat ∧ (s.takeNext).ol = s.ol ∧ (s.takeNext).pt = s.pt
      ∧ (s.takeNext).he0 = s.he0 ∧ (s.takeNext).he1 = s.he1 ∧ (s.takeNext).cs = s.cs := by
  rcases s.takeNext_cases with e | ⟨d, l, -, -, -, -, e⟩ <;> rw [e] <;> simp

/-- With a directive in hand TI takes none. -/
theorem State.takeNext_busy {s : State} (h : s.ti.inHand ≠ none) : s.takeNext = s := by
  rcases s.takeNext_cases with e | ⟨d, l, n, -⟩
  · exact e
  · exact absurd n h

/-- Having taken what it may, TI takes no more. -/
@[simp] theorem State.takeNext_takeNext (s : State) : s.takeNext.takeNext = s.takeNext := by
  rcases s.takeNext_cases with e | ⟨d, l, -, -, -, -, e⟩
  · rw [e, e]
  · rw [e]
    exact State.takeNext_busy (by simp)

@[simp] theorem State.conclude_frame (s : State) (d : Directive) (r : Result) (b : ReplyBody) :
    (s.conclude d r b).pending = s.pending ∧ (s.conclude d r b).lif = s.lif ∧ (s.conclude d r b).nt = s.nt
      ∧ (s.conclude d r b).zt = s.zt ∧ (s.conclude d r b).lu = s.lu ∧ (s.conclude d r b).cu = s.cu
      ∧ (s.conclude d r b).pc = s.pc ∧ (s.conclude d r b).fz = s.fz ∧ (s.conclude d r b).la = s.la
      ∧ (s.conclude d r b).cat = s.cat ∧ (s.conclude d r b).ol = s.ol ∧ (s.conclude d r b).pt = s.pt
      ∧ (s.conclude d r b).he0 = s.he0 ∧ (s.conclude d r b).he1 = s.he1 ∧ (s.conclude d r b).cs = s.cs := by
  unfold State.conclude
  simp

@[simp] theorem State.passDownOutcome_frame (s : State) (o : TxOutcome) :
    (s.passDownOutcome o).pending = s.pending ∧ (s.passDownOutcome o).lif = s.lif ∧ (s.passDownOutcome o).nt = s.nt
      ∧ (s.passDownOutcome o).zt = s.zt ∧ (s.passDownOutcome o).lu = s.lu ∧ (s.passDownOutcome o).cu = s.cu
      ∧ (s.passDownOutcome o).pc = s.pc ∧ (s.passDownOutcome o).fz = s.fz ∧ (s.passDownOutcome o).la = s.la
      ∧ (s.passDownOutcome o).cat = s.cat ∧ (s.passDownOutcome o).ol = s.ol ∧ (s.passDownOutcome o).pt = s.pt
      ∧ (s.passDownOutcome o).he0 = s.he0 ∧ (s.passDownOutcome o).he1 = s.he1 ∧ (s.passDownOutcome o).cs = s.cs := by
  unfold State.passDownOutcome
  repeat' (first | split | dsimp only)
  all_goals simp

@[simp] theorem State.placeTx_frame (s : State) (r : TxRequest) :
    (s.placeTx r).pending = s.pending ∧ (s.placeTx r).nt = s.nt ∧ (s.placeTx r).zt = s.zt ∧ (s.placeTx r).lu = s.lu
      ∧ (s.placeTx r).cu = s.cu ∧ (s.placeTx r).pc = s.pc ∧ (s.placeTx r).fz = s.fz ∧ (s.placeTx r).la = s.la
      ∧ (s.placeTx r).cat = s.cat ∧ (s.placeTx r).ol = s.ol ∧ (s.placeTx r).pt = s.pt ∧ (s.placeTx r).he0 = s.he0
      ∧ (s.placeTx r).he1 = s.he1 ∧ (s.placeTx r).ti = s.ti ∧ (s.placeTx r).cs = s.cs := by
  refine ⟨?_, ?_, ?_, ?_, ?_, ?_, ?_, ?_, ?_, ?_, ?_, ?_, ?_, ?_, ?_⟩ <;> rfl

@[simp] theorem State.removeTx_frame (s : State) (n : Nat) :
    (s.removeTx n).pending = s.pending ∧ (s.removeTx n).nt = s.nt ∧ (s.removeTx n).zt = s.zt
      ∧ (s.removeTx n).lu = s.lu ∧ (s.removeTx n).cu = s.cu ∧ (s.removeTx n).pc = s.pc ∧ (s.removeTx n).fz = s.fz
      ∧ (s.removeTx n).la = s.la ∧ (s.removeTx n).cat = s.cat ∧ (s.removeTx n).ol = s.ol ∧ (s.removeTx n).pt = s.pt
      ∧ (s.removeTx n).he0 = s.he0 ∧ (s.removeTx n).he1 = s.he1 ∧ (s.removeTx n).ti = s.ti ∧ (s.removeTx n).cs = s.cs := by
  refine ⟨?_, ?_, ?_, ?_, ?_, ?_, ?_, ?_, ?_, ?_, ?_, ?_, ?_, ?_, ?_⟩ <;> rfl

@[simp] theorem State.mapOrigins_frame (s : State) (f : Origin → Origin) :
    (s.mapOrigins f).pending = s.pending ∧ (s.mapOrigins f).nt = s.nt ∧ (s.mapOrigins f).zt = s.zt
      ∧ (s.mapOrigins f).lu = s.lu ∧ (s.mapOrigins f).cu = s.cu ∧ (s.mapOrigins f).pc = s.pc
      ∧ (s.mapOrigins f).fz = s.fz ∧ (s.mapOrigins f).la = s.la ∧ (s.mapOrigins f).cat = s.cat
      ∧ (s.mapOrigins f).ol = s.ol ∧ (s.mapOrigins f).pt = s.pt ∧ (s.mapOrigins f).he0 = s.he0
      ∧ (s.mapOrigins f).he1 = s.he1 ∧ (s.mapOrigins f).ti = s.ti ∧ (s.mapOrigins f).cs = s.cs := by
  refine ⟨?_, ?_, ?_, ?_, ?_, ?_, ?_, ?_, ?_, ?_, ?_, ?_, ?_, ?_, ?_⟩ <;> rfl

@[simp] theorem State.mapTx_frame (s : State) (n : Nat) (f : TxItem → TxItem) :
    (s.mapTx n f).pending = s.pending ∧ (s.mapTx n f).nt = s.nt ∧ (s.mapTx n f).zt = s.zt ∧ (s.mapTx n f).lu = s.lu
      ∧ (s.mapTx n f).cu = s.cu ∧ (s.mapTx n f).pc = s.pc ∧ (s.mapTx n f).fz = s.fz ∧ (s.mapTx n f).la = s.la
      ∧ (s.mapTx n f).cat = s.cat ∧ (s.mapTx n f).ol = s.ol ∧ (s.mapTx n f).pt = s.pt ∧ (s.mapTx n f).he0 = s.he0
      ∧ (s.mapTx n f).he1 = s.he1 ∧ (s.mapTx n f).ti = s.ti ∧ (s.mapTx n f).cs = s.cs := by
  refine ⟨?_, ?_, ?_, ?_, ?_, ?_, ?_, ?_, ?_, ?_, ?_, ?_, ?_, ?_, ?_⟩ <;> rfl

@[simp] theorem State.killRelease_frame (s : State) (z : Nat) :
    (s.killRelease z).pending = s.pending ∧ (s.killRelease z).nt = s.nt ∧ (s.killRelease z).zt = s.zt
      ∧ (s.killRelease z).lu = s.lu ∧ (s.killRelease z).cu = s.cu ∧ (s.killRelease z).pc = s.pc
      ∧ (s.killRelease z).fz = s.fz ∧ (s.killRelease z).la = s.la ∧ (s.killRelease z).cat = s.cat
      ∧ (s.killRelease z).ol = s.ol ∧ (s.killRelease z).pt = s.pt ∧ (s.killRelease z).he0 = s.he0
      ∧ (s.killRelease z).he1 = s.he1 ∧ (s.killRelease z).ti = s.ti ∧ (s.killRelease z).cs = s.cs := by
  refine ⟨?_, ?_, ?_, ?_, ?_, ?_, ?_, ?_, ?_, ?_, ?_, ?_, ?_, ?_, ?_⟩ <;> rfl

@[simp] theorem State.killLockSet_frame (s : State) (a : Nat) :
    (s.killLockSet a).pending = s.pending ∧ (s.killLockSet a).nt = s.nt ∧ (s.killLockSet a).zt = s.zt
      ∧ (s.killLockSet a).lu = s.lu ∧ (s.killLockSet a).cu = s.cu ∧ (s.killLockSet a).pc = s.pc
      ∧ (s.killLockSet a).fz = s.fz ∧ (s.killLockSet a).la = s.la ∧ (s.killLockSet a).cat = s.cat
      ∧ (s.killLockSet a).ol = s.ol ∧ (s.killLockSet a).pt = s.pt ∧ (s.killLockSet a).he0 = s.he0
      ∧ (s.killLockSet a).he1 = s.he1 ∧ (s.killLockSet a).ti = s.ti ∧ (s.killLockSet a).cs = s.cs := by
  refine ⟨?_, ?_, ?_, ?_, ?_, ?_, ?_, ?_, ?_, ?_, ?_, ?_, ?_, ?_, ?_⟩ <;> rfl

@[simp] theorem State.killActSet_frame (s : State) (z : Nat) (r : Role) :
    (s.killActSet z r).pending = s.pending ∧ (s.killActSet z r).nt = s.nt ∧ (s.killActSet z r).zt = s.zt
      ∧ (s.killActSet z r).lu = s.lu ∧ (s.killActSet z r).cu = s.cu ∧ (s.killActSet z r).pc = s.pc
      ∧ (s.killActSet z r).fz = s.fz ∧ (s.killActSet z r).la = s.la ∧ (s.killActSet z r).cat = s.cat
      ∧ (s.killActSet z r).ol = s.ol ∧ (s.killActSet z r).pt = s.pt ∧ (s.killActSet z r).he0 = s.he0
      ∧ (s.killActSet z r).he1 = s.he1 ∧ (s.killActSet z r).ti = s.ti ∧ (s.killActSet z r).cs = s.cs := by
  refine ⟨?_, ?_, ?_, ?_, ?_, ?_, ?_, ?_, ?_, ?_, ?_, ?_, ?_, ?_, ?_⟩ <;> rfl

@[simp] theorem State.orphanActSet_frame (s : State) (z : Nat) (r : Role) :
    (s.orphanActSet z r).pending = s.pending ∧ (s.orphanActSet z r).nt = s.nt ∧ (s.orphanActSet z r).zt = s.zt
      ∧ (s.orphanActSet z r).lu = s.lu ∧ (s.orphanActSet z r).cu = s.cu ∧ (s.orphanActSet z r).pc = s.pc
      ∧ (s.orphanActSet z r).fz = s.fz ∧ (s.orphanActSet z r).la = s.la ∧ (s.orphanActSet z r).cat = s.cat
      ∧ (s.orphanActSet z r).ol = s.ol ∧ (s.orphanActSet z r).pt = s.pt ∧ (s.orphanActSet z r).he0 = s.he0
      ∧ (s.orphanActSet z r).he1 = s.he1 ∧ (s.orphanActSet z r).ti = s.ti ∧ (s.orphanActSet z r).cs = s.cs := by
  refine ⟨?_, ?_, ?_, ?_, ?_, ?_, ?_, ?_, ?_, ?_, ?_, ?_, ?_, ?_, ?_⟩ <;> rfl

@[simp] theorem State.detachPick_frame (s : State) (n : Nat) :
    (s.detachPick n).pending = s.pending ∧ (s.detachPick n).nt = s.nt ∧ (s.detachPick n).zt = s.zt
      ∧ (s.detachPick n).lu = s.lu ∧ (s.detachPick n).cu = s.cu ∧ (s.detachPick n).pc = s.pc
      ∧ (s.detachPick n).fz = s.fz ∧ (s.detachPick n).la = s.la ∧ (s.detachPick n).cat = s.cat
      ∧ (s.detachPick n).ol = s.ol ∧ (s.detachPick n).pt = s.pt ∧ (s.detachPick n).he0 = s.he0
      ∧ (s.detachPick n).he1 = s.he1 ∧ (s.detachPick n).ti = s.ti ∧ (s.detachPick n).cs = s.cs := by
  refine ⟨?_, ?_, ?_, ?_, ?_, ?_, ?_, ?_, ?_, ?_, ?_, ?_, ?_, ?_, ?_⟩ <;> rfl

@[simp] theorem State.lockDropped_frame (s : State) (a : Nat) (l : Bool) :
    (s.lockDropped a l).pending = s.pending ∧ (s.lockDropped a l).lif = s.lif ∧ (s.lockDropped a l).nt = s.nt
      ∧ (s.lockDropped a l).zt = s.zt ∧ (s.lockDropped a l).lu = s.lu ∧ (s.lockDropped a l).cu = s.cu
      ∧ (s.lockDropped a l).pc = s.pc ∧ (s.lockDropped a l).fz = s.fz ∧ (s.lockDropped a l).cat = s.cat
      ∧ (s.lockDropped a l).ol = s.ol ∧ (s.lockDropped a l).pt = s.pt ∧ (s.lockDropped a l).he0 = s.he0
      ∧ (s.lockDropped a l).he1 = s.he1 ∧ (s.lockDropped a l).ti = s.ti ∧ (s.lockDropped a l).cs = s.cs := by
  unfold State.lockDropped
  repeat' (first | split | dsimp only)
  all_goals simp

@[simp] theorem State.actDropped_frame (s : State) (z : Nat) (r : Role) (p : ActPurpose) (l : Bool) :
    (s.actDropped z r p l).pending = s.pending ∧ (s.actDropped z r p l).lif = s.lif
      ∧ (s.actDropped z r p l).nt = s.nt ∧ (s.actDropped z r p l).zt = s.zt ∧ (s.actDropped z r p l).lu = s.lu
      ∧ (s.actDropped z r p l).cu = s.cu ∧ (s.actDropped z r p l).fz = s.fz ∧ (s.actDropped z r p l).la = s.la
      ∧ (s.actDropped z r p l).cat = s.cat ∧ (s.actDropped z r p l).ol = s.ol ∧ (s.actDropped z r p l).pt = s.pt
      ∧ (s.actDropped z r p l).he0 = s.he0 ∧ (s.actDropped z r p l).he1 = s.he1 ∧ (s.actDropped z r p l).ti = s.ti
      ∧ (s.actDropped z r p l).cs = s.cs := by
  unfold State.actDropped
  repeat' (first | split | dsimp only)
  all_goals simp

@[simp] theorem State.pickDropped_frame (s : State) (n : Nat) (d : Bool) :
    (s.pickDropped n d).pending = s.pending ∧ (s.pickDropped n d).lif = s.lif ∧ (s.pickDropped n d).nt = s.nt
      ∧ (s.pickDropped n d).zt = s.zt ∧ (s.pickDropped n d).lu = s.lu ∧ (s.pickDropped n d).cu = s.cu
      ∧ (s.pickDropped n d).pc = s.pc ∧ (s.pickDropped n d).fz = s.fz ∧ (s.pickDropped n d).la = s.la
      ∧ (s.pickDropped n d).cat = s.cat ∧ (s.pickDropped n d).pt = s.pt ∧ (s.pickDropped n d).he0 = s.he0
      ∧ (s.pickDropped n d).he1 = s.he1 ∧ (s.pickDropped n d).ti = s.ti ∧ (s.pickDropped n d).cs = s.cs := by
  unfold State.pickDropped
  repeat' (first | split | dsimp only)
  all_goals simp

@[simp] theorem State.dropped_frame (s : State) (o : Origin) :
    (s.dropped o).pending = s.pending ∧ (s.dropped o).lif = s.lif ∧ (s.dropped o).nt = s.nt ∧ (s.dropped o).zt = s.zt
      ∧ (s.dropped o).lu = s.lu ∧ (s.dropped o).cu = s.cu ∧ (s.dropped o).cat = s.cat ∧ (s.dropped o).pt = s.pt
      ∧ (s.dropped o).he0 = s.he0 ∧ (s.dropped o).he1 = s.he1 ∧ (s.dropped o).cs = s.cs := by
  unfold State.dropped
  repeat' (first | split | dsimp only)
  all_goals simp

@[simp] theorem State.requestTx_frame (s : State) (r : TxRequest) :
    (s.requestTx r).pending = s.pending ∧ (s.requestTx r).nt = s.nt ∧ (s.requestTx r).zt = s.zt
      ∧ (s.requestTx r).lu = s.lu ∧ (s.requestTx r).cu = s.cu ∧ (s.requestTx r).cat = s.cat
      ∧ (s.requestTx r).pt = s.pt ∧ (s.requestTx r).he0 = s.he0 ∧ (s.requestTx r).he1 = s.he1
      ∧ (s.requestTx r).cs = s.cs := by
  unfold State.requestTx
  repeat' (first | split | dsimp only)
  all_goals simp

@[simp] theorem State.sendLock_frame (s : State) (a : Nat) :
    (s.sendLock a).pending = s.pending ∧ (s.sendLock a).nt = s.nt ∧ (s.sendLock a).zt = s.zt
      ∧ (s.sendLock a).lu = s.lu ∧ (s.sendLock a).cu = s.cu ∧ (s.sendLock a).cat = s.cat ∧ (s.sendLock a).pt = s.pt
      ∧ (s.sendLock a).he0 = s.he0 ∧ (s.sendLock a).he1 = s.he1 ∧ (s.sendLock a).cs = s.cs := by
  unfold State.sendLock
  repeat' (first | split | dsimp only)
  all_goals simp

@[simp] theorem State.decideLock_frame (s : State) (a : Nat) :
    (s.decideLock a).pending = s.pending ∧ (s.decideLock a).nt = s.nt ∧ (s.decideLock a).zt = s.zt
      ∧ (s.decideLock a).lu = s.lu ∧ (s.decideLock a).cu = s.cu ∧ (s.decideLock a).cat = s.cat
      ∧ (s.decideLock a).pt = s.pt ∧ (s.decideLock a).he0 = s.he0 ∧ (s.decideLock a).he1 = s.he1
      ∧ (s.decideLock a).cs = s.cs := by
  unfold State.decideLock
  repeat' (first | split | dsimp only)
  all_goals simp

@[simp] theorem State.setClaims_frame (s : State) (a : Nat) (f : Claims → Claims) :
    (s.setClaims a f).pending = s.pending ∧ (s.setClaims a f).nt = s.nt ∧ (s.setClaims a f).zt = s.zt
      ∧ (s.setClaims a f).lu = s.lu ∧ (s.setClaims a f).cu = s.cu ∧ (s.setClaims a f).cat = s.cat
      ∧ (s.setClaims a f).pt = s.pt ∧ (s.setClaims a f).he0 = s.he0 ∧ (s.setClaims a f).he1 = s.he1
      ∧ (s.setClaims a f).cs = s.cs := by
  unfold State.setClaims
  repeat' (first | split | dsimp only)
  all_goals simp

@[simp] theorem State.settleFireHold_frame (s : State) (a : Nat) :
    (s.settleFireHold a).pending = s.pending ∧ (s.settleFireHold a).nt = s.nt ∧ (s.settleFireHold a).zt = s.zt
      ∧ (s.settleFireHold a).lu = s.lu ∧ (s.settleFireHold a).cu = s.cu ∧ (s.settleFireHold a).cat = s.cat
      ∧ (s.settleFireHold a).pt = s.pt ∧ (s.settleFireHold a).he0 = s.he0 ∧ (s.settleFireHold a).he1 = s.he1
      ∧ (s.settleFireHold a).cs = s.cs := by
  unfold State.settleFireHold
  repeat' (first | split | dsimp only)
  all_goals simp

@[simp] theorem State.settleFireHolds_frame (s : State) (as : List Nat) :
    (s.settleFireHolds as).pending = s.pending ∧ (s.settleFireHolds as).nt = s.nt ∧ (s.settleFireHolds as).zt = s.zt
      ∧ (s.settleFireHolds as).lu = s.lu ∧ (s.settleFireHolds as).cu = s.cu ∧ (s.settleFireHolds as).cat = s.cat
      ∧ (s.settleFireHolds as).pt = s.pt ∧ (s.settleFireHolds as).he0 = s.he0 ∧ (s.settleFireHolds as).he1 = s.he1
      ∧ (s.settleFireHolds as).cs = s.cs := by
  refine ⟨?_, ?_, ?_, ?_, ?_, ?_, ?_, ?_, ?_, ?_⟩
  · exact foldl_keeps State.pending _ (fun s a => by simp) _ _
  · exact foldl_keeps State.nt _ (fun s a => by simp) _ _
  · exact foldl_keeps State.zt _ (fun s a => by simp) _ _
  · exact foldl_keeps State.lu _ (fun s a => by simp) _ _
  · exact foldl_keeps State.cu _ (fun s a => by simp) _ _
  · exact foldl_keeps State.cat _ (fun s a => by simp) _ _
  · exact foldl_keeps State.pt _ (fun s a => by simp) _ _
  · exact foldl_keeps State.he0 _ (fun s a => by simp) _ _
  · exact foldl_keeps State.he1 _ (fun s a => by simp) _ _
  · exact foldl_keeps State.cs _ (fun s a => by simp) _ _

@[simp] theorem State.dropHandoverClaim_frame (s : State) (h : Hatch) :
    (s.dropHandoverClaim h).pending = s.pending ∧ (s.dropHandoverClaim h).nt = s.nt
      ∧ (s.dropHandoverClaim h).zt = s.zt ∧ (s.dropHandoverClaim h).lu = s.lu ∧ (s.dropHandoverClaim h).cu = s.cu
      ∧ (s.dropHandoverClaim h).cat = s.cat ∧ (s.dropHandoverClaim h).pt = s.pt ∧ (s.dropHandoverClaim h).he0 = s.he0
      ∧ (s.dropHandoverClaim h).he1 = s.he1 ∧ (s.dropHandoverClaim h).cs = s.cs := by
  unfold State.dropHandoverClaim
  repeat' (first | split | dsimp only)
  all_goals simp

@[simp] theorem State.createLock_frame (s : State) (a : Nat) :
    (s.createLock a).pending = s.pending ∧ (s.createLock a).nt = s.nt ∧ (s.createLock a).zt = s.zt
      ∧ (s.createLock a).lu = s.lu ∧ (s.createLock a).cu = s.cu ∧ (s.createLock a).cat = s.cat
      ∧ (s.createLock a).pt = s.pt ∧ (s.createLock a).he0 = s.he0 ∧ (s.createLock a).he1 = s.he1
      ∧ (s.createLock a).cs = s.cs := by
  unfold State.createLock
  repeat' (first | split | dsimp only)
  all_goals simp

@[simp] theorem State.removeLock_frame (s : State) (a : Nat) :
    (s.removeLock a).pending = s.pending ∧ (s.removeLock a).nt = s.nt ∧ (s.removeLock a).zt = s.zt
      ∧ (s.removeLock a).lu = s.lu ∧ (s.removeLock a).cu = s.cu ∧ (s.removeLock a).cat = s.cat
      ∧ (s.removeLock a).pt = s.pt ∧ (s.removeLock a).he0 = s.he0 ∧ (s.removeLock a).he1 = s.he1
      ∧ (s.removeLock a).cs = s.cs := by
  unfold State.removeLock
  repeat' (first | split | dsimp only)
  all_goals simp

@[simp] theorem State.lockHeard_frame (s : State) (a : Nat) :
    (s.lockHeard a).pending = s.pending ∧ (s.lockHeard a).nt = s.nt ∧ (s.lockHeard a).zt = s.zt
      ∧ (s.lockHeard a).lu = s.lu ∧ (s.lockHeard a).cu = s.cu ∧ (s.lockHeard a).cat = s.cat
      ∧ (s.lockHeard a).pt = s.pt ∧ (s.lockHeard a).he0 = s.he0 ∧ (s.lockHeard a).he1 = s.he1
      ∧ (s.lockHeard a).cs = s.cs := by
  unfold State.lockHeard
  repeat' (first | split | dsimp only)
  all_goals simp

@[simp] theorem State.lockDelivered_frame (s : State) (a : Nat) :
    (s.lockDelivered a).pending = s.pending ∧ (s.lockDelivered a).nt = s.nt ∧ (s.lockDelivered a).zt = s.zt
      ∧ (s.lockDelivered a).lu = s.lu ∧ (s.lockDelivered a).cu = s.cu ∧ (s.lockDelivered a).cat = s.cat
      ∧ (s.lockDelivered a).pt = s.pt ∧ (s.lockDelivered a).he0 = s.he0 ∧ (s.lockDelivered a).he1 = s.he1
      ∧ (s.lockDelivered a).cs = s.cs := by
  unfold State.lockDelivered
  repeat' (first | split | dsimp only)
  all_goals simp

@[simp] theorem State.lockFailed_frame (s : State) (a : Nat) (r : LockFaultReason) :
    (s.lockFailed a r).pending = s.pending ∧ (s.lockFailed a r).nt = s.nt ∧ (s.lockFailed a r).zt = s.zt
      ∧ (s.lockFailed a r).lu = s.lu ∧ (s.lockFailed a r).cu = s.cu ∧ (s.lockFailed a r).cat = s.cat
      ∧ (s.lockFailed a r).pt = s.pt ∧ (s.lockFailed a r).he0 = s.he0 ∧ (s.lockFailed a r).he1 = s.he1
      ∧ (s.lockFailed a r).cs = s.cs := by
  unfold State.lockFailed
  repeat' (first | split | dsimp only)
  all_goals simp

@[simp] theorem State.lockOutcome_frame (s : State) (a : Nat) (l : Bool) (o : TxOutcome) :
    (s.lockOutcome a l o).pending = s.pending ∧ (s.lockOutcome a l o).nt = s.nt ∧ (s.lockOutcome a l o).zt = s.zt
      ∧ (s.lockOutcome a l o).lu = s.lu ∧ (s.lockOutcome a l o).cu = s.cu ∧ (s.lockOutcome a l o).cat = s.cat
      ∧ (s.lockOutcome a l o).pt = s.pt ∧ (s.lockOutcome a l o).he0 = s.he0 ∧ (s.lockOutcome a l o).he1 = s.he1
      ∧ (s.lockOutcome a l o).cs = s.cs := by
  unfold State.lockOutcome
  repeat' (first | split | dsimp only)
  all_goals simp

@[simp] theorem State.failActuator_frame (s : State) (z : Nat) (r : Role) (b : ActState) (on : Bool) (w : ActReason) :
    (s.failActuator z r b on w).pending = s.pending ∧ (s.failActuator z r b on w).nt = s.nt
      ∧ (s.failActuator z r b on w).zt = s.zt ∧ (s.failActuator z r b on w).lu = s.lu
      ∧ (s.failActuator z r b on w).cu = s.cu ∧ (s.failActuator z r b on w).cat = s.cat
      ∧ (s.failActuator z r b on w).pt = s.pt ∧ (s.failActuator z r b on w).he0 = s.he0
      ∧ (s.failActuator z r b on w).he1 = s.he1 ∧ (s.failActuator z r b on w).cs = s.cs := by
  unfold State.failActuator
  repeat' (first | split | dsimp only)
  all_goals simp

@[simp] theorem State.queueOff_frame (s : State) (z : Nat) (r : Role) (b : ActState) :
    (s.queueOff z r b).pending = s.pending ∧ (s.queueOff z r b).nt = s.nt ∧ (s.queueOff z r b).zt = s.zt
      ∧ (s.queueOff z r b).lu = s.lu ∧ (s.queueOff z r b).cu = s.cu ∧ (s.queueOff z r b).cat = s.cat
      ∧ (s.queueOff z r b).pt = s.pt ∧ (s.queueOff z r b).he0 = s.he0 ∧ (s.queueOff z r b).he1 = s.he1
      ∧ (s.queueOff z r b).cs = s.cs := by
  unfold State.queueOff
  repeat' (first | split | dsimp only)
  all_goals simp

@[simp] theorem State.startUnit_frame (s : State) (z : Nat) (r : Role) :
    (s.startUnit z r).pending = s.pending ∧ (s.startUnit z r).nt = s.nt ∧ (s.startUnit z r).zt = s.zt
      ∧ (s.startUnit z r).lu = s.lu ∧ (s.startUnit z r).cu = s.cu ∧ (s.startUnit z r).cat = s.cat
      ∧ (s.startUnit z r).pt = s.pt ∧ (s.startUnit z r).he0 = s.he0 ∧ (s.startUnit z r).he1 = s.he1
      ∧ (s.startUnit z r).cs = s.cs := by
  unfold State.startUnit
  repeat' (first | split | dsimp only)
  all_goals simp

@[simp] theorem State.stopUnit_frame (s : State) (z : Nat) (r : Role) :
    (s.stopUnit z r).pending = s.pending ∧ (s.stopUnit z r).nt = s.nt ∧ (s.stopUnit z r).zt = s.zt
      ∧ (s.stopUnit z r).lu = s.lu ∧ (s.stopUnit z r).cu = s.cu ∧ (s.stopUnit z r).cat = s.cat
      ∧ (s.stopUnit z r).pt = s.pt ∧ (s.stopUnit z r).he0 = s.he0 ∧ (s.stopUnit z r).he1 = s.he1
      ∧ (s.stopUnit z r).cs = s.cs := by
  unfold State.stopUnit
  repeat' (first | split | dsimp only)
  all_goals simp

@[simp] theorem State.runElapsed_frame (s : State) (z : Nat) (r : Role) :
    (s.runElapsed z r).pending = s.pending ∧ (s.runElapsed z r).nt = s.nt ∧ (s.runElapsed z r).zt = s.zt
      ∧ (s.runElapsed z r).lu = s.lu ∧ (s.runElapsed z r).cu = s.cu ∧ (s.runElapsed z r).cat = s.cat
      ∧ (s.runElapsed z r).pt = s.pt ∧ (s.runElapsed z r).he0 = s.he0 ∧ (s.runElapsed z r).he1 = s.he1
      ∧ (s.runElapsed z r).cs = s.cs := by
  unfold State.runElapsed
  repeat' (first | split | dsimp only)
  all_goals simp

@[simp] theorem State.restOver_frame (s : State) (z : Nat) (r : Role) :
    (s.restOver z r).pending = s.pending ∧ (s.restOver z r).nt = s.nt ∧ (s.restOver z r).zt = s.zt
      ∧ (s.restOver z r).lu = s.lu ∧ (s.restOver z r).cu = s.cu ∧ (s.restOver z r).cat = s.cat
      ∧ (s.restOver z r).pt = s.pt ∧ (s.restOver z r).he0 = s.he0 ∧ (s.restOver z r).he1 = s.he1
      ∧ (s.restOver z r).cs = s.cs := by
  unfold State.restOver
  repeat' (first | split | dsimp only)
  all_goals simp

@[simp] theorem State.enterRest_frame (s : State) (z : Nat) (r : Role) :
    (s.enterRest z r).pending = s.pending ∧ (s.enterRest z r).nt = s.nt ∧ (s.enterRest z r).zt = s.zt
      ∧ (s.enterRest z r).lu = s.lu ∧ (s.enterRest z r).cu = s.cu ∧ (s.enterRest z r).cat = s.cat
      ∧ (s.enterRest z r).pt = s.pt ∧ (s.enterRest z r).he0 = s.he0 ∧ (s.enterRest z r).he1 = s.he1
      ∧ (s.enterRest z r).cs = s.cs := by
  unfold State.enterRest
  repeat' (first | split | dsimp only)
  all_goals simp

@[simp] theorem State.reportRecord_frame (s : State) (z : Nat) (r : Role) :
    (s.reportRecord z r).pending = s.pending ∧ (s.reportRecord z r).nt = s.nt ∧ (s.reportRecord z r).zt = s.zt
      ∧ (s.reportRecord z r).lu = s.lu ∧ (s.reportRecord z r).cu = s.cu ∧ (s.reportRecord z r).cat = s.cat
      ∧ (s.reportRecord z r).pt = s.pt ∧ (s.reportRecord z r).he0 = s.he0 ∧ (s.reportRecord z r).he1 = s.he1
      ∧ (s.reportRecord z r).cs = s.cs := by
  unfold State.reportRecord
  repeat' (first | split | dsimp only)
  all_goals simp

@[simp] theorem State.demandReport_frame (s : State) (z : Nat) :
    (s.demandReport z).pending = s.pending ∧ (s.demandReport z).nt = s.nt ∧ (s.demandReport z).zt = s.zt
      ∧ (s.demandReport z).lu = s.lu ∧ (s.demandReport z).cu = s.cu ∧ (s.demandReport z).cat = s.cat
      ∧ (s.demandReport z).pt = s.pt ∧ (s.demandReport z).he0 = s.he0 ∧ (s.demandReport z).he1 = s.he1
      ∧ (s.demandReport z).cs = s.cs := by
  unfold State.demandReport
  repeat' (first | split | dsimp only)
  all_goals simp

@[simp] theorem State.toShut_frame (s : State) (z : Nat) (r : Role) (a : Actuator) :
    (s.toShut z r a).pending = s.pending ∧ (s.toShut z r a).nt = s.nt ∧ (s.toShut z r a).zt = s.zt
      ∧ (s.toShut z r a).lu = s.lu ∧ (s.toShut z r a).cu = s.cu ∧ (s.toShut z r a).cat = s.cat
      ∧ (s.toShut z r a).pt = s.pt ∧ (s.toShut z r a).he0 = s.he0 ∧ (s.toShut z r a).he1 = s.he1
      ∧ (s.toShut z r a).cs = s.cs := by
  unfold State.toShut
  repeat' (first | split | dsimp only)
  all_goals simp

@[simp] theorem State.shutdownRecord_frame (s : State) (z : Nat) (r : Role) :
    (s.shutdownRecord z r).pending = s.pending ∧ (s.shutdownRecord z r).nt = s.nt ∧ (s.shutdownRecord z r).zt = s.zt
      ∧ (s.shutdownRecord z r).lu = s.lu ∧ (s.shutdownRecord z r).cu = s.cu ∧ (s.shutdownRecord z r).cat = s.cat
      ∧ (s.shutdownRecord z r).pt = s.pt ∧ (s.shutdownRecord z r).he0 = s.he0 ∧ (s.shutdownRecord z r).he1 = s.he1
      ∧ (s.shutdownRecord z r).cs = s.cs := by
  unfold State.shutdownRecord
  repeat' (first | split | dsimp only)
  all_goals simp

@[simp] theorem State.shutdownPlant_frame (s : State) (z : Nat) :
    (s.shutdownPlant z).pending = s.pending ∧ (s.shutdownPlant z).nt = s.nt ∧ (s.shutdownPlant z).zt = s.zt
      ∧ (s.shutdownPlant z).lu = s.lu ∧ (s.shutdownPlant z).cu = s.cu ∧ (s.shutdownPlant z).cat = s.cat
      ∧ (s.shutdownPlant z).pt = s.pt ∧ (s.shutdownPlant z).he0 = s.he0 ∧ (s.shutdownPlant z).he1 = s.he1
      ∧ (s.shutdownPlant z).cs = s.cs := by
  unfold State.shutdownPlant
  repeat' (first | split | dsimp only)
  all_goals simp

@[simp] theorem State.returnRecord_frame (s : State) (z : Nat) (r : Role) :
    (s.returnRecord z r).pending = s.pending ∧ (s.returnRecord z r).nt = s.nt ∧ (s.returnRecord z r).zt = s.zt
      ∧ (s.returnRecord z r).lu = s.lu ∧ (s.returnRecord z r).cu = s.cu ∧ (s.returnRecord z r).cat = s.cat
      ∧ (s.returnRecord z r).pt = s.pt ∧ (s.returnRecord z r).he0 = s.he0 ∧ (s.returnRecord z r).he1 = s.he1
      ∧ (s.returnRecord z r).cs = s.cs := by
  unfold State.returnRecord
  repeat' (first | split | dsimp only)
  all_goals simp

@[simp] theorem State.returnPlant_frame (s : State) (z : Nat) :
    (s.returnPlant z).pending = s.pending ∧ (s.returnPlant z).nt = s.nt ∧ (s.returnPlant z).zt = s.zt
      ∧ (s.returnPlant z).lu = s.lu ∧ (s.returnPlant z).cu = s.cu ∧ (s.returnPlant z).cat = s.cat
      ∧ (s.returnPlant z).pt = s.pt ∧ (s.returnPlant z).he0 = s.he0 ∧ (s.returnPlant z).he1 = s.he1
      ∧ (s.returnPlant z).cs = s.cs := by
  unfold State.returnPlant
  repeat' (first | split | dsimp only)
  all_goals simp

@[simp] theorem State.actDelivered_frame (s : State) (z : Nat) (r : Role) (p : ActPurpose) :
    (s.actDelivered z r p).pending = s.pending ∧ (s.actDelivered z r p).nt = s.nt ∧ (s.actDelivered z r p).zt = s.zt
      ∧ (s.actDelivered z r p).lu = s.lu ∧ (s.actDelivered z r p).cu = s.cu ∧ (s.actDelivered z r p).cat = s.cat
      ∧ (s.actDelivered z r p).pt = s.pt ∧ (s.actDelivered z r p).he0 = s.he0 ∧ (s.actDelivered z r p).he1 = s.he1
      ∧ (s.actDelivered z r p).cs = s.cs := by
  unfold State.actDelivered
  repeat' (first | split | dsimp only)
  all_goals simp

@[simp] theorem State.actFailed_frame (s : State) (z : Nat) (r : Role) (p : ActPurpose) (w : ActReason) :
    (s.actFailed z r p w).pending = s.pending ∧ (s.actFailed z r p w).nt = s.nt ∧ (s.actFailed z r p w).zt = s.zt
      ∧ (s.actFailed z r p w).lu = s.lu ∧ (s.actFailed z r p w).cu = s.cu ∧ (s.actFailed z r p w).cat = s.cat
      ∧ (s.actFailed z r p w).pt = s.pt ∧ (s.actFailed z r p w).he0 = s.he0 ∧ (s.actFailed z r p w).he1 = s.he1
      ∧ (s.actFailed z r p w).cs = s.cs := by
  unfold State.actFailed
  repeat' (first | split | dsimp only)
  all_goals simp

@[simp] theorem State.actOutcome_frame (s : State) (z : Nat) (r : Role) (p : ActPurpose) (l : Bool) (o : TxOutcome) :
    (s.actOutcome z r p l o).pending = s.pending ∧ (s.actOutcome z r p l o).nt = s.nt
      ∧ (s.actOutcome z r p l o).zt = s.zt ∧ (s.actOutcome z r p l o).lu = s.lu ∧ (s.actOutcome z r p l o).cu = s.cu
      ∧ (s.actOutcome z r p l o).cat = s.cat ∧ (s.actOutcome z r p l o).pt = s.pt
      ∧ (s.actOutcome z r p l o).he0 = s.he0 ∧ (s.actOutcome z r p l o).he1 = s.he1
      ∧ (s.actOutcome z r p l o).cs = s.cs := by
  unfold State.actOutcome
  repeat' (first | split | dsimp only)
  all_goals simp

@[simp] theorem State.recoverRecord_frame (s : State) (z : Nat) (r : Role) :
    (s.recoverRecord z r).pending = s.pending ∧ (s.recoverRecord z r).nt = s.nt ∧ (s.recoverRecord z r).zt = s.zt
      ∧ (s.recoverRecord z r).lu = s.lu ∧ (s.recoverRecord z r).cu = s.cu ∧ (s.recoverRecord z r).cat = s.cat
      ∧ (s.recoverRecord z r).pt = s.pt ∧ (s.recoverRecord z r).he0 = s.he0 ∧ (s.recoverRecord z r).he1 = s.he1
      ∧ (s.recoverRecord z r).cs = s.cs := by
  unfold State.recoverRecord
  repeat' (first | split | dsimp only)
  all_goals simp

@[simp] theorem State.plantHeard_frame (s : State) (a : Nat) :
    (s.plantHeard a).pending = s.pending ∧ (s.plantHeard a).nt = s.nt ∧ (s.plantHeard a).zt = s.zt
      ∧ (s.plantHeard a).lu = s.lu ∧ (s.plantHeard a).cu = s.cu ∧ (s.plantHeard a).cat = s.cat
      ∧ (s.plantHeard a).pt = s.pt ∧ (s.plantHeard a).he0 = s.he0 ∧ (s.plantHeard a).he1 = s.he1
      ∧ (s.plantHeard a).cs = s.cs := by
  unfold State.plantHeard
  refine ⟨?_, ?_, ?_, ?_, ?_, ?_, ?_, ?_, ?_, ?_⟩
  · exact foldl_keeps State.pending _ (by simp) _ _
  · exact foldl_keeps State.nt _ (by simp) _ _
  · exact foldl_keeps State.zt _ (by simp) _ _
  · exact foldl_keeps State.lu _ (by simp) _ _
  · exact foldl_keeps State.cu _ (by simp) _ _
  · exact foldl_keeps State.cat _ (by simp) _ _
  · exact foldl_keeps State.pt _ (by simp) _ _
  · exact foldl_keeps State.he0 _ (by simp) _ _
  · exact foldl_keeps State.he1 _ (by simp) _ _
  · exact foldl_keeps State.cs _ (by simp) _ _

@[simp] theorem State.createActuator_frame (s : State) (z : Nat) (r : Role) (n : Nat) :
    (s.createActuator z r n).pending = s.pending ∧ (s.createActuator z r n).nt = s.nt
      ∧ (s.createActuator z r n).zt = s.zt ∧ (s.createActuator z r n).lu = s.lu ∧ (s.createActuator z r n).cu = s.cu
      ∧ (s.createActuator z r n).cat = s.cat ∧ (s.createActuator z r n).pt = s.pt
      ∧ (s.createActuator z r n).he0 = s.he0 ∧ (s.createActuator z r n).he1 = s.he1
      ∧ (s.createActuator z r n).cs = s.cs := by
  unfold State.createActuator
  repeat' (first | split | dsimp only)
  all_goals simp

@[simp] theorem State.removeActuator_frame (s : State) (z : Nat) (r : Role) :
    (s.removeActuator z r).pending = s.pending ∧ (s.removeActuator z r).nt = s.nt ∧ (s.removeActuator z r).zt = s.zt
      ∧ (s.removeActuator z r).lu = s.lu ∧ (s.removeActuator z r).cu = s.cu ∧ (s.removeActuator z r).cat = s.cat
      ∧ (s.removeActuator z r).pt = s.pt ∧ (s.removeActuator z r).he0 = s.he0 ∧ (s.removeActuator z r).he1 = s.he1
      ∧ (s.removeActuator z r).cs = s.cs := by
  unfold State.removeActuator
  repeat' (first | split | dsimp only)
  all_goals simp

@[simp] theorem State.reloadActuator_frame (s : State) (z : Nat) (r : Role) (n : Option Nat) :
    (s.reloadActuator z r n).pending = s.pending ∧ (s.reloadActuator z r n).nt = s.nt
      ∧ (s.reloadActuator z r n).zt = s.zt ∧ (s.reloadActuator z r n).lu = s.lu ∧ (s.reloadActuator z r n).cu = s.cu
      ∧ (s.reloadActuator z r n).cat = s.cat ∧ (s.reloadActuator z r n).pt = s.pt
      ∧ (s.reloadActuator z r n).he0 = s.he0 ∧ (s.reloadActuator z r n).he1 = s.he1
      ∧ (s.reloadActuator z r n).cs = s.cs := by
  unfold State.reloadActuator
  repeat' (first | split | dsimp only)
  all_goals simp

@[simp] theorem State.reloadPlant_frame (s : State) (z : Nat) (g : Option ClimateGroup) :
    (s.reloadPlant z g).pending = s.pending ∧ (s.reloadPlant z g).nt = s.nt ∧ (s.reloadPlant z g).zt = s.zt
      ∧ (s.reloadPlant z g).lu = s.lu ∧ (s.reloadPlant z g).cu = s.cu ∧ (s.reloadPlant z g).cat = s.cat
      ∧ (s.reloadPlant z g).pt = s.pt ∧ (s.reloadPlant z g).he0 = s.he0 ∧ (s.reloadPlant z g).he1 = s.he1
      ∧ (s.reloadPlant z g).cs = s.cs := by
  unfold State.reloadPlant
  repeat' (first | split | dsimp only)
  all_goals simp

@[simp] theorem State.changeHeld_frame (s : State) (i : Nat) (f : Nat → Nat) :
    (s.changeHeld i f).pending = s.pending ∧ (s.changeHeld i f).lif = s.lif ∧ (s.changeHeld i f).nt = s.nt
      ∧ (s.changeHeld i f).zt = s.zt ∧ (s.changeHeld i f).lu = s.lu ∧ (s.changeHeld i f).cu = s.cu
      ∧ (s.changeHeld i f).pc = s.pc ∧ (s.changeHeld i f).fz = s.fz ∧ (s.changeHeld i f).la = s.la
      ∧ (s.changeHeld i f).cat = s.cat ∧ (s.changeHeld i f).ol = s.ol ∧ (s.changeHeld i f).he0 = s.he0
      ∧ (s.changeHeld i f).he1 = s.he1 ∧ (s.changeHeld i f).ti = s.ti ∧ (s.changeHeld i f).cs = s.cs := by
  unfold State.changeHeld
  repeat' (first | split | dsimp only)
  all_goals simp

@[simp] theorem State.raiseHeld_frame (s : State) (i : Nat) :
    (s.raiseHeld i).pending = s.pending ∧ (s.raiseHeld i).lif = s.lif ∧ (s.raiseHeld i).nt = s.nt
      ∧ (s.raiseHeld i).zt = s.zt ∧ (s.raiseHeld i).lu = s.lu ∧ (s.raiseHeld i).cu = s.cu ∧ (s.raiseHeld i).pc = s.pc
      ∧ (s.raiseHeld i).fz = s.fz ∧ (s.raiseHeld i).la = s.la ∧ (s.raiseHeld i).cat = s.cat
      ∧ (s.raiseHeld i).ol = s.ol ∧ (s.raiseHeld i).he0 = s.he0 ∧ (s.raiseHeld i).he1 = s.he1
      ∧ (s.raiseHeld i).ti = s.ti ∧ (s.raiseHeld i).cs = s.cs := by
  unfold State.raiseHeld
  repeat' (first | split | dsimp only)
  all_goals simp

@[simp] theorem State.lowerHeld_frame (s : State) (i : Nat) :
    (s.lowerHeld i).pending = s.pending ∧ (s.lowerHeld i).lif = s.lif ∧ (s.lowerHeld i).nt = s.nt
      ∧ (s.lowerHeld i).zt = s.zt ∧ (s.lowerHeld i).lu = s.lu ∧ (s.lowerHeld i).cu = s.cu ∧ (s.lowerHeld i).pc = s.pc
      ∧ (s.lowerHeld i).fz = s.fz ∧ (s.lowerHeld i).la = s.la ∧ (s.lowerHeld i).cat = s.cat
      ∧ (s.lowerHeld i).ol = s.ol ∧ (s.lowerHeld i).he0 = s.he0 ∧ (s.lowerHeld i).he1 = s.he1
      ∧ (s.lowerHeld i).ti = s.ti ∧ (s.lowerHeld i).cs = s.cs := by
  unfold State.lowerHeld
  repeat' (first | split | dsimp only)
  all_goals simp

@[simp] theorem State.lowerHeldOf_frame (s : State) (i : Option Nat) :
    (s.lowerHeldOf i).pending = s.pending ∧ (s.lowerHeldOf i).lif = s.lif ∧ (s.lowerHeldOf i).nt = s.nt
      ∧ (s.lowerHeldOf i).zt = s.zt ∧ (s.lowerHeldOf i).lu = s.lu ∧ (s.lowerHeldOf i).cu = s.cu
      ∧ (s.lowerHeldOf i).pc = s.pc ∧ (s.lowerHeldOf i).fz = s.fz ∧ (s.lowerHeldOf i).la = s.la
      ∧ (s.lowerHeldOf i).cat = s.cat ∧ (s.lowerHeldOf i).ol = s.ol ∧ (s.lowerHeldOf i).he0 = s.he0
      ∧ (s.lowerHeldOf i).he1 = s.he1 ∧ (s.lowerHeldOf i).ti = s.ti ∧ (s.lowerHeldOf i).cs = s.cs := by
  unfold State.lowerHeldOf
  repeat' (first | split | dsimp only)
  all_goals simp

@[simp] theorem State.releaseOrder_frame (s : State) (n : Nat) :
    (s.releaseOrder n).pending = s.pending ∧ (s.releaseOrder n).nt = s.nt ∧ (s.releaseOrder n).zt = s.zt
      ∧ (s.releaseOrder n).lu = s.lu ∧ (s.releaseOrder n).cu = s.cu ∧ (s.releaseOrder n).cat = s.cat
      ∧ (s.releaseOrder n).pt = s.pt ∧ (s.releaseOrder n).he0 = s.he0 ∧ (s.releaseOrder n).he1 = s.he1
      ∧ (s.releaseOrder n).cs = s.cs := by
  unfold State.releaseOrder
  repeat' (first | split | dsimp only)
  all_goals simp

@[simp] theorem State.settlePick_frame (s : State) (n : Nat) :
    (s.settlePick n).pending = s.pending ∧ (s.settlePick n).nt = s.nt ∧ (s.settlePick n).zt = s.zt
      ∧ (s.settlePick n).lu = s.lu ∧ (s.settlePick n).cu = s.cu ∧ (s.settlePick n).cat = s.cat
      ∧ (s.settlePick n).pt = s.pt ∧ (s.settlePick n).he0 = s.he0 ∧ (s.settlePick n).he1 = s.he1
      ∧ (s.settlePick n).cs = s.cs := by
  unfold State.settlePick
  repeat' (first | split | dsimp only)
  all_goals simp

@[simp] theorem State.moveOrder_frame (s : State) (n : Nat) (t : OrderState) :
    (s.moveOrder n t).pending = s.pending ∧ (s.moveOrder n t).nt = s.nt ∧ (s.moveOrder n t).zt = s.zt
      ∧ (s.moveOrder n t).lu = s.lu ∧ (s.moveOrder n t).cu = s.cu ∧ (s.moveOrder n t).cat = s.cat
      ∧ (s.moveOrder n t).pt = s.pt ∧ (s.moveOrder n t).he0 = s.he0 ∧ (s.moveOrder n t).he1 = s.he1
      ∧ (s.moveOrder n t).cs = s.cs := by
  unfold State.moveOrder
  repeat' (first | split | dsimp only)
  all_goals simp

@[simp] theorem State.orderBackInSlot_frame (s : State) (n : Nat) :
    (s.orderBackInSlot n).pending = s.pending ∧ (s.orderBackInSlot n).nt = s.nt ∧ (s.orderBackInSlot n).zt = s.zt
      ∧ (s.orderBackInSlot n).lu = s.lu ∧ (s.orderBackInSlot n).cu = s.cu ∧ (s.orderBackInSlot n).cat = s.cat
      ∧ (s.orderBackInSlot n).pt = s.pt ∧ (s.orderBackInSlot n).he0 = s.he0 ∧ (s.orderBackInSlot n).he1 = s.he1
      ∧ (s.orderBackInSlot n).cs = s.cs := by
  unfold State.orderBackInSlot
  repeat' (first | split | dsimp only)
  all_goals simp

@[simp] theorem State.closeOrder_frame (s : State) (n : Nat) (w : OrderReason) :
    (s.closeOrder n w).pending = s.pending ∧ (s.closeOrder n w).nt = s.nt ∧ (s.closeOrder n w).zt = s.zt
      ∧ (s.closeOrder n w).lu = s.lu ∧ (s.closeOrder n w).cu = s.cu ∧ (s.closeOrder n w).cat = s.cat
      ∧ (s.closeOrder n w).pt = s.pt ∧ (s.closeOrder n w).he0 = s.he0 ∧ (s.closeOrder n w).he1 = s.he1
      ∧ (s.closeOrder n w).cs = s.cs := by
  unfold State.closeOrder
  repeat' (first | split | dsimp only)
  all_goals simp

@[simp] theorem State.closeOrderOf_frame (s : State) (n : Option Nat) (w : OrderReason) :
    (s.closeOrderOf n w).pending = s.pending ∧ (s.closeOrderOf n w).nt = s.nt ∧ (s.closeOrderOf n w).zt = s.zt
      ∧ (s.closeOrderOf n w).lu = s.lu ∧ (s.closeOrderOf n w).cu = s.cu ∧ (s.closeOrderOf n w).cat = s.cat
      ∧ (s.closeOrderOf n w).pt = s.pt ∧ (s.closeOrderOf n w).he0 = s.he0 ∧ (s.closeOrderOf n w).he1 = s.he1
      ∧ (s.closeOrderOf n w).cs = s.cs := by
  unfold State.closeOrderOf
  repeat' (first | split | dsimp only)
  all_goals simp

@[simp] theorem State.holdOrders_frame (s : State) (z : Nat) :
    (s.holdOrders z).pending = s.pending ∧ (s.holdOrders z).nt = s.nt ∧ (s.holdOrders z).zt = s.zt
      ∧ (s.holdOrders z).lu = s.lu ∧ (s.holdOrders z).cu = s.cu ∧ (s.holdOrders z).cat = s.cat
      ∧ (s.holdOrders z).pt = s.pt ∧ (s.holdOrders z).he0 = s.he0 ∧ (s.holdOrders z).he1 = s.he1
      ∧ (s.holdOrders z).cs = s.cs := by
  refine ⟨?_, ?_, ?_, ?_, ?_, ?_, ?_, ?_, ?_, ?_⟩
  · exact foldl_keeps State.pending _ (fun s a => by simp) _ _
  · exact foldl_keeps State.nt _ (fun s a => by simp) _ _
  · exact foldl_keeps State.zt _ (fun s a => by simp) _ _
  · exact foldl_keeps State.lu _ (fun s a => by simp) _ _
  · exact foldl_keeps State.cu _ (fun s a => by simp) _ _
  · exact foldl_keeps State.cat _ (fun s a => by simp) _ _
  · exact foldl_keeps State.pt _ (fun s a => by simp) _ _
  · exact foldl_keeps State.he0 _ (fun s a => by simp) _ _
  · exact foldl_keeps State.he1 _ (fun s a => by simp) _ _
  · exact foldl_keeps State.cs _ (fun s a => by simp) _ _

@[simp] theorem State.freeOrders_frame (s : State) (z : Nat) :
    (s.freeOrders z).pending = s.pending ∧ (s.freeOrders z).nt = s.nt ∧ (s.freeOrders z).zt = s.zt
      ∧ (s.freeOrders z).lu = s.lu ∧ (s.freeOrders z).cu = s.cu ∧ (s.freeOrders z).cat = s.cat
      ∧ (s.freeOrders z).pt = s.pt ∧ (s.freeOrders z).he0 = s.he0 ∧ (s.freeOrders z).he1 = s.he1
      ∧ (s.freeOrders z).cs = s.cs := by
  refine ⟨?_, ?_, ?_, ?_, ?_, ?_, ?_, ?_, ?_, ?_⟩
  · exact foldl_keeps State.pending _ (fun s a => by simp) _ _
  · exact foldl_keeps State.nt _ (fun s a => by simp) _ _
  · exact foldl_keeps State.zt _ (fun s a => by simp) _ _
  · exact foldl_keeps State.lu _ (fun s a => by simp) _ _
  · exact foldl_keeps State.cu _ (fun s a => by simp) _ _
  · exact foldl_keeps State.cat _ (fun s a => by simp) _ _
  · exact foldl_keeps State.pt _ (fun s a => by simp) _ _
  · exact foldl_keeps State.he0 _ (fun s a => by simp) _ _
  · exact foldl_keeps State.he1 _ (fun s a => by simp) _ _
  · exact foldl_keeps State.cs _ (fun s a => by simp) _ _

@[simp] theorem State.ordersFire_frame (s : State) (z : Nat) (b a : FireState) :
    (s.ordersFire z b a).pending = s.pending ∧ (s.ordersFire z b a).nt = s.nt ∧ (s.ordersFire z b a).zt = s.zt
      ∧ (s.ordersFire z b a).lu = s.lu ∧ (s.ordersFire z b a).cu = s.cu ∧ (s.ordersFire z b a).cat = s.cat
      ∧ (s.ordersFire z b a).pt = s.pt ∧ (s.ordersFire z b a).he0 = s.he0 ∧ (s.ordersFire z b a).he1 = s.he1
      ∧ (s.ordersFire z b a).cs = s.cs := by
  unfold State.ordersFire
  repeat' (first | split | dsimp only)
  all_goals simp

@[simp] theorem State.ordersEpoch_frame (s : State) :
    (s.ordersEpoch).pending = s.pending ∧ (s.ordersEpoch).nt = s.nt ∧ (s.ordersEpoch).zt = s.zt
      ∧ (s.ordersEpoch).lu = s.lu ∧ (s.ordersEpoch).cu = s.cu ∧ (s.ordersEpoch).cat = s.cat
      ∧ (s.ordersEpoch).pt = s.pt ∧ (s.ordersEpoch).he0 = s.he0 ∧ (s.ordersEpoch).he1 = s.he1
      ∧ (s.ordersEpoch).cs = s.cs := by
  refine ⟨?_, ?_, ?_, ?_, ?_, ?_, ?_, ?_, ?_, ?_⟩
  · exact foldl_keeps State.pending _ (fun s a => by simp) _ _
  · exact foldl_keeps State.nt _ (fun s a => by simp) _ _
  · exact foldl_keeps State.zt _ (fun s a => by simp) _ _
  · exact foldl_keeps State.lu _ (fun s a => by simp) _ _
  · exact foldl_keeps State.cu _ (fun s a => by simp) _ _
  · exact foldl_keeps State.cat _ (fun s a => by simp) _ _
  · exact foldl_keeps State.pt _ (fun s a => by simp) _ _
  · exact foldl_keeps State.he0 _ (fun s a => by simp) _ _
  · exact foldl_keeps State.he1 _ (fun s a => by simp) _ _
  · exact foldl_keeps State.cs _ (fun s a => by simp) _ _

@[simp] theorem State.pickDelivered_frame (s : State) (n : Nat) (d : Bool) (a : Nat) :
    (s.pickDelivered n d a).pending = s.pending ∧ (s.pickDelivered n d a).nt = s.nt
      ∧ (s.pickDelivered n d a).zt = s.zt ∧ (s.pickDelivered n d a).lu = s.lu ∧ (s.pickDelivered n d a).cu = s.cu
      ∧ (s.pickDelivered n d a).cat = s.cat ∧ (s.pickDelivered n d a).pt = s.pt ∧ (s.pickDelivered n d a).he0 = s.he0
      ∧ (s.pickDelivered n d a).he1 = s.he1 ∧ (s.pickDelivered n d a).cs = s.cs := by
  unfold State.pickDelivered
  repeat' (first | split | dsimp only)
  all_goals simp

@[simp] theorem State.pickFailed_frame (s : State) (n : Nat) (d : Bool) (a : Nat) (o : TxOutcome) :
    (s.pickFailed n d a o).pending = s.pending ∧ (s.pickFailed n d a o).nt = s.nt ∧ (s.pickFailed n d a o).zt = s.zt
      ∧ (s.pickFailed n d a o).lu = s.lu ∧ (s.pickFailed n d a o).cu = s.cu ∧ (s.pickFailed n d a o).cat = s.cat
      ∧ (s.pickFailed n d a o).pt = s.pt ∧ (s.pickFailed n d a o).he0 = s.he0 ∧ (s.pickFailed n d a o).he1 = s.he1
      ∧ (s.pickFailed n d a o).cs = s.cs := by
  unfold State.pickFailed
  repeat' (first | split | dsimp only)
  all_goals simp

@[simp] theorem State.pickOutcome_frame (s : State) (n : Nat) (d : Bool) (a : Nat) (o : TxOutcome) :
    (s.pickOutcome n d a o).pending = s.pending ∧ (s.pickOutcome n d a o).nt = s.nt
      ∧ (s.pickOutcome n d a o).zt = s.zt ∧ (s.pickOutcome n d a o).lu = s.lu ∧ (s.pickOutcome n d a o).cu = s.cu
      ∧ (s.pickOutcome n d a o).cat = s.cat ∧ (s.pickOutcome n d a o).pt = s.pt ∧ (s.pickOutcome n d a o).he0 = s.he0
      ∧ (s.pickOutcome n d a o).he1 = s.he1 ∧ (s.pickOutcome n d a o).cs = s.cs := by
  unfold State.pickOutcome
  repeat' (first | split | dsimp only)
  all_goals simp

@[simp] theorem State.postCartridge_frame (s : State) (i : Nat) (b : CartState) (c : Cartridge) (k : Option Nat) (w : CartReason) :
    (s.postCartridge i b c k w).pending = s.pending ∧ (s.postCartridge i b c k w).lif = s.lif
      ∧ (s.postCartridge i b c k w).nt = s.nt ∧ (s.postCartridge i b c k w).zt = s.zt
      ∧ (s.postCartridge i b c k w).lu = s.lu ∧ (s.postCartridge i b c k w).cu = s.cu
      ∧ (s.postCartridge i b c k w).pc = s.pc ∧ (s.postCartridge i b c k w).fz = s.fz
      ∧ (s.postCartridge i b c k w).la = s.la ∧ (s.postCartridge i b c k w).cat = s.cat
      ∧ (s.postCartridge i b c k w).ol = s.ol ∧ (s.postCartridge i b c k w).pt = s.pt
      ∧ (s.postCartridge i b c k w).he0 = s.he0 ∧ (s.postCartridge i b c k w).he1 = s.he1
      ∧ (s.postCartridge i b c k w).cs = s.cs := by
  refine ⟨?_, ?_, ?_, ?_, ?_, ?_, ?_, ?_, ?_, ?_, ?_, ?_, ?_, ?_, ?_⟩ <;> rfl

@[simp] theorem State.dropFromList_frame (s : State) (h : Option Hatch) (i : Nat) :
    (s.dropFromList h i).pending = s.pending ∧ (s.dropFromList h i).lif = s.lif ∧ (s.dropFromList h i).nt = s.nt
      ∧ (s.dropFromList h i).zt = s.zt ∧ (s.dropFromList h i).lu = s.lu ∧ (s.dropFromList h i).cu = s.cu
      ∧ (s.dropFromList h i).pc = s.pc ∧ (s.dropFromList h i).fz = s.fz ∧ (s.dropFromList h i).la = s.la
      ∧ (s.dropFromList h i).cat = s.cat ∧ (s.dropFromList h i).ol = s.ol ∧ (s.dropFromList h i).pt = s.pt
      ∧ (s.dropFromList h i).ti = s.ti ∧ (s.dropFromList h i).cs = s.cs := by
  unfold State.dropFromList
  repeat' (first | split | dsimp only)
  all_goals simp

@[simp] theorem State.slotEmptied_frame (s : State) (z n : Nat) :
    (s.slotEmptied z n).pending = s.pending ∧ (s.slotEmptied z n).nt = s.nt ∧ (s.slotEmptied z n).zt = s.zt
      ∧ (s.slotEmptied z n).lu = s.lu ∧ (s.slotEmptied z n).cu = s.cu ∧ (s.slotEmptied z n).pt = s.pt
      ∧ (s.slotEmptied z n).he0 = s.he0 ∧ (s.slotEmptied z n).he1 = s.he1 ∧ (s.slotEmptied z n).cs = s.cs := by
  unfold State.slotEmptied
  repeat' (first | split | dsimp only)
  all_goals simp

@[simp] theorem State.reshelve_frame (s : State) (i : Nat) (c : Cartridge) :
    (s.reshelve i c).pending = s.pending ∧ (s.reshelve i c).lif = s.lif ∧ (s.reshelve i c).nt = s.nt
      ∧ (s.reshelve i c).zt = s.zt ∧ (s.reshelve i c).lu = s.lu ∧ (s.reshelve i c).cu = s.cu
      ∧ (s.reshelve i c).pc = s.pc ∧ (s.reshelve i c).fz = s.fz ∧ (s.reshelve i c).la = s.la
      ∧ (s.reshelve i c).ol = s.ol ∧ (s.reshelve i c).pt = s.pt ∧ (s.reshelve i c).he0 = s.he0
      ∧ (s.reshelve i c).he1 = s.he1 ∧ (s.reshelve i c).cs = s.cs := by
  unfold State.reshelve
  repeat' (first | split | dsimp only)
  all_goals simp

@[simp] theorem State.reorder_frame (s : State) (i : Nat) (c : Cartridge) (n : Nat) :
    (s.reorder i c n).pending = s.pending ∧ (s.reorder i c n).nt = s.nt ∧ (s.reorder i c n).zt = s.zt
      ∧ (s.reorder i c n).lu = s.lu ∧ (s.reorder i c n).cu = s.cu ∧ (s.reorder i c n).pt = s.pt
      ∧ (s.reorder i c n).he0 = s.he0 ∧ (s.reorder i c n).he1 = s.he1 ∧ (s.reorder i c n).cs = s.cs := by
  unfold State.reorder
  repeat' (first | split | dsimp only)
  all_goals simp

@[simp] theorem State.shelveEarly_frame (s : State) (i : Nat) (c : Cartridge) :
    (s.shelveEarly i c).pending = s.pending ∧ (s.shelveEarly i c).lif = s.lif ∧ (s.shelveEarly i c).nt = s.nt
      ∧ (s.shelveEarly i c).zt = s.zt ∧ (s.shelveEarly i c).lu = s.lu ∧ (s.shelveEarly i c).cu = s.cu
      ∧ (s.shelveEarly i c).pc = s.pc ∧ (s.shelveEarly i c).fz = s.fz ∧ (s.shelveEarly i c).la = s.la
      ∧ (s.shelveEarly i c).ol = s.ol ∧ (s.shelveEarly i c).pt = s.pt ∧ (s.shelveEarly i c).he0 = s.he0
      ∧ (s.shelveEarly i c).he1 = s.he1 ∧ (s.shelveEarly i c).cs = s.cs := by
  unfold State.shelveEarly
  repeat' (first | split | dsimp only)
  all_goals simp

@[simp] theorem State.shelveIrregular_frame (s : State) (i : Nat) (c : Cartridge) :
    (s.shelveIrregular i c).pending = s.pending ∧ (s.shelveIrregular i c).lif = s.lif
      ∧ (s.shelveIrregular i c).nt = s.nt ∧ (s.shelveIrregular i c).zt = s.zt ∧ (s.shelveIrregular i c).lu = s.lu
      ∧ (s.shelveIrregular i c).cu = s.cu ∧ (s.shelveIrregular i c).pc = s.pc ∧ (s.shelveIrregular i c).fz = s.fz
      ∧ (s.shelveIrregular i c).la = s.la ∧ (s.shelveIrregular i c).ol = s.ol ∧ (s.shelveIrregular i c).cs = s.cs := by
  unfold State.shelveIrregular
  repeat' (first | split | dsimp only)
  all_goals simp

@[simp] theorem State.backHome_frame (s : State) (i : Nat) (c : Cartridge) :
    (s.backHome i c).pending = s.pending ∧ (s.backHome i c).nt = s.nt ∧ (s.backHome i c).zt = s.zt
      ∧ (s.backHome i c).lu = s.lu ∧ (s.backHome i c).cu = s.cu ∧ (s.backHome i c).cs = s.cs := by
  unfold State.backHome
  repeat' (first | split | dsimp only)
  all_goals simp

@[simp] theorem State.slotOccupied_frame (s : State) (p z n : Nat) (l : Label) :
    (s.slotOccupied p z n l).pending = s.pending ∧ (s.slotOccupied p z n l).nt = s.nt
      ∧ (s.slotOccupied p z n l).zt = s.zt ∧ (s.slotOccupied p z n l).lu = s.lu ∧ (s.slotOccupied p z n l).cu = s.cu
      ∧ (s.slotOccupied p z n l).cs = s.cs := by
  unfold State.slotOccupied
  repeat' (first | split | dsimp only)
  all_goals simp

@[simp] theorem State.inspectStep_frame (s : State) (i : Nat) :
    (s.inspectStep i).pending = s.pending ∧ (s.inspectStep i).nt = s.nt ∧ (s.inspectStep i).zt = s.zt
      ∧ (s.inspectStep i).lu = s.lu ∧ (s.inspectStep i).cu = s.cu ∧ (s.inspectStep i).pt = s.pt
      ∧ (s.inspectStep i).he0 = s.he0 ∧ (s.inspectStep i).he1 = s.he1 ∧ (s.inspectStep i).cs = s.cs := by
  unfold State.inspectStep
  repeat' (first | split | dsimp only)
  all_goals simp

@[simp] theorem State.acclimStep_frame (s : State) (e : Epoch) (i : Nat) :
    (s.acclimStep e i).pending = s.pending ∧ (s.acclimStep e i).lif = s.lif ∧ (s.acclimStep e i).nt = s.nt
      ∧ (s.acclimStep e i).zt = s.zt ∧ (s.acclimStep e i).lu = s.lu ∧ (s.acclimStep e i).cu = s.cu
      ∧ (s.acclimStep e i).pc = s.pc ∧ (s.acclimStep e i).fz = s.fz ∧ (s.acclimStep e i).la = s.la
      ∧ (s.acclimStep e i).ol = s.ol ∧ (s.acclimStep e i).pt = s.pt ∧ (s.acclimStep e i).he0 = s.he0
      ∧ (s.acclimStep e i).he1 = s.he1 ∧ (s.acclimStep e i).cs = s.cs := by
  unfold State.acclimStep
  repeat' (first | split | dsimp only)
  all_goals simp

@[simp] theorem State.overdueStep_frame (s : State) (i : Nat) :
    (s.overdueStep i).pending = s.pending ∧ (s.overdueStep i).lif = s.lif ∧ (s.overdueStep i).nt = s.nt
      ∧ (s.overdueStep i).zt = s.zt ∧ (s.overdueStep i).lu = s.lu ∧ (s.overdueStep i).cu = s.cu
      ∧ (s.overdueStep i).pc = s.pc ∧ (s.overdueStep i).fz = s.fz ∧ (s.overdueStep i).la = s.la
      ∧ (s.overdueStep i).ol = s.ol ∧ (s.overdueStep i).pt = s.pt ∧ (s.overdueStep i).he0 = s.he0
      ∧ (s.overdueStep i).he1 = s.he1 ∧ (s.overdueStep i).cs = s.cs := by
  unfold State.overdueStep
  repeat' (first | split | dsimp only)
  all_goals simp

@[simp] theorem State.epochRecord_frame (s : State) (e : Epoch) (i : Nat) :
    (State.epochRecord e s i).pending = s.pending ∧ (State.epochRecord e s i).nt = s.nt
      ∧ (State.epochRecord e s i).zt = s.zt ∧ (State.epochRecord e s i).lu = s.lu
      ∧ (State.epochRecord e s i).cu = s.cu ∧ (State.epochRecord e s i).pt = s.pt
      ∧ (State.epochRecord e s i).he0 = s.he0 ∧ (State.epochRecord e s i).he1 = s.he1
      ∧ (State.epochRecord e s i).cs = s.cs := by
  unfold State.epochRecord
  split <;> simp

@[simp] theorem State.epochWork_frame (s : State) (e : Epoch) :
    (s.epochWork e).pending = s.pending ∧ (s.epochWork e).nt = s.nt ∧ (s.epochWork e).zt = s.zt
      ∧ (s.epochWork e).lu = s.lu ∧ (s.epochWork e).cu = s.cu ∧ (s.epochWork e).pt = s.pt
      ∧ (s.epochWork e).he0 = s.he0 ∧ (s.epochWork e).he1 = s.he1 ∧ (s.epochWork e).cs = s.cs := by
  refine ⟨?_, ?_, ?_, ?_, ?_, ?_, ?_, ?_, ?_⟩
  · exact foldl_keeps State.pending _ (fun s a => by simp) _ _
  · exact foldl_keeps State.nt _ (fun s a => by simp) _ _
  · exact foldl_keeps State.zt _ (fun s a => by simp) _ _
  · exact foldl_keeps State.lu _ (fun s a => by simp) _ _
  · exact foldl_keeps State.cu _ (fun s a => by simp) _ _
  · exact foldl_keeps State.pt _ (fun s a => by simp) _ _
  · exact foldl_keeps State.he0 _ (fun s a => by simp) _ _
  · exact foldl_keeps State.he1 _ (fun s a => by simp) _ _
  · exact foldl_keeps State.cs _ (fun s a => by simp) _ _

theorem State.quarantineRecord_frame (z : Nat) (acc : State × Nat × Nat) (i : Nat) :
    (State.quarantineRecord z acc i).1.pending = acc.1.pending ∧ (State.quarantineRecord z acc i).1.nt = acc.1.nt
      ∧ (State.quarantineRecord z acc i).1.zt = acc.1.zt ∧ (State.quarantineRecord z acc i).1.lu = acc.1.lu
      ∧ (State.quarantineRecord z acc i).1.cu = acc.1.cu ∧ (State.quarantineRecord z acc i).1.pt = acc.1.pt
      ∧ (State.quarantineRecord z acc i).1.he0 = acc.1.he0 ∧ (State.quarantineRecord z acc i).1.he1 = acc.1.he1
      ∧ (State.quarantineRecord z acc i).1.cs = acc.1.cs := by
  unfold State.quarantineRecord
  (repeat' split) <;> simp

@[simp] theorem State.quarantineZone_frame (s : State) (z : Nat) :
    (s.quarantineZone z).pending = s.pending ∧ (s.quarantineZone z).nt = s.nt ∧ (s.quarantineZone z).zt = s.zt
      ∧ (s.quarantineZone z).lu = s.lu ∧ (s.quarantineZone z).cu = s.cu ∧ (s.quarantineZone z).pt = s.pt
      ∧ (s.quarantineZone z).he0 = s.he0 ∧ (s.quarantineZone z).he1 = s.he1 ∧ (s.quarantineZone z).cs = s.cs := by
  refine ⟨?_, ?_, ?_, ?_, ?_, ?_, ?_, ?_, ?_⟩
  · exact foldl_keeps (fun p : State × Nat × Nat => p.1.pending) (State.quarantineRecord z)
      (fun p i => by simp only [State.quarantineRecord_frame]) _ (s, 0, 0)
  · exact foldl_keeps (fun p : State × Nat × Nat => p.1.nt) (State.quarantineRecord z)
      (fun p i => by simp only [State.quarantineRecord_frame]) _ (s, 0, 0)
  · exact foldl_keeps (fun p : State × Nat × Nat => p.1.zt) (State.quarantineRecord z)
      (fun p i => by simp only [State.quarantineRecord_frame]) _ (s, 0, 0)
  · exact foldl_keeps (fun p : State × Nat × Nat => p.1.lu) (State.quarantineRecord z)
      (fun p i => by simp only [State.quarantineRecord_frame]) _ (s, 0, 0)
  · exact foldl_keeps (fun p : State × Nat × Nat => p.1.cu) (State.quarantineRecord z)
      (fun p i => by simp only [State.quarantineRecord_frame]) _ (s, 0, 0)
  · exact foldl_keeps (fun p : State × Nat × Nat => p.1.pt) (State.quarantineRecord z)
      (fun p i => by simp only [State.quarantineRecord_frame]) _ (s, 0, 0)
  · exact foldl_keeps (fun p : State × Nat × Nat => p.1.he0) (State.quarantineRecord z)
      (fun p i => by simp only [State.quarantineRecord_frame]) _ (s, 0, 0)
  · exact foldl_keeps (fun p : State × Nat × Nat => p.1.he1) (State.quarantineRecord z)
      (fun p i => by simp only [State.quarantineRecord_frame]) _ (s, 0, 0)
  · exact foldl_keeps (fun p : State × Nat × Nat => p.1.cs) (State.quarantineRecord z)
      (fun p i => by simp only [State.quarantineRecord_frame]) _ (s, 0, 0)

@[simp] theorem State.postClimate_frame (s : State) (z : Nat) (b : Status) :
    (s.postClimate z b).pending = s.pending ∧ (s.postClimate z b).lif = s.lif ∧ (s.postClimate z b).nt = s.nt
      ∧ (s.postClimate z b).zt = s.zt ∧ (s.postClimate z b).lu = s.lu ∧ (s.postClimate z b).cu = s.cu
      ∧ (s.postClimate z b).pc = s.pc ∧ (s.postClimate z b).fz = s.fz ∧ (s.postClimate z b).la = s.la
      ∧ (s.postClimate z b).cat = s.cat ∧ (s.postClimate z b).ol = s.ol ∧ (s.postClimate z b).pt = s.pt
      ∧ (s.postClimate z b).he0 = s.he0 ∧ (s.postClimate z b).he1 = s.he1 ∧ (s.postClimate z b).cs = s.cs := by
  unfold State.postClimate
  repeat' (first | split | dsimp only)
  all_goals simp

@[simp] theorem State.setDemand_frame (s : State) (z : Nat) (d : Demand) :
    (s.setDemand z d).pending = s.pending ∧ (s.setDemand z d).lif = s.lif ∧ (s.setDemand z d).nt = s.nt
      ∧ (s.setDemand z d).zt = s.zt ∧ (s.setDemand z d).lu = s.lu ∧ (s.setDemand z d).pc = s.pc
      ∧ (s.setDemand z d).fz = s.fz ∧ (s.setDemand z d).la = s.la ∧ (s.setDemand z d).cat = s.cat
      ∧ (s.setDemand z d).ol = s.ol ∧ (s.setDemand z d).pt = s.pt ∧ (s.setDemand z d).he0 = s.he0
      ∧ (s.setDemand z d).he1 = s.he1 ∧ (s.setDemand z d).ti = s.ti ∧ (s.setDemand z d).cs = s.cs := by
  refine ⟨?_, ?_, ?_, ?_, ?_, ?_, ?_, ?_, ?_, ?_, ?_, ?_, ?_, ?_, ?_⟩ <;> rfl

@[simp] theorem State.takeSample_frame (s : State) (z : Nat) (g : ClimateGroup) (a b : Int) :
    (s.takeSample z g a b).pending = s.pending ∧ (s.takeSample z g a b).nt = s.nt ∧ (s.takeSample z g a b).zt = s.zt
      ∧ (s.takeSample z g a b).lu = s.lu ∧ (s.takeSample z g a b).cat = s.cat ∧ (s.takeSample z g a b).pt = s.pt
      ∧ (s.takeSample z g a b).he0 = s.he0 ∧ (s.takeSample z g a b).he1 = s.he1 ∧ (s.takeSample z g a b).cs = s.cs := by
  unfold State.takeSample
  repeat' (first | split | dsimp only)
  all_goals simp

@[simp] theorem State.becomeStale_frame (s : State) (z : Nat) :
    (s.becomeStale z).pending = s.pending ∧ (s.becomeStale z).nt = s.nt ∧ (s.becomeStale z).zt = s.zt
      ∧ (s.becomeStale z).lu = s.lu ∧ (s.becomeStale z).cat = s.cat ∧ (s.becomeStale z).pt = s.pt
      ∧ (s.becomeStale z).he0 = s.he0 ∧ (s.becomeStale z).he1 = s.he1 ∧ (s.becomeStale z).cs = s.cs := by
  unfold State.becomeStale
  repeat' (first | split | dsimp only)
  all_goals simp

@[simp] theorem State.emptyClimate_frame (s : State) (z : Nat) :
    (s.emptyClimate z).pending = s.pending ∧ (s.emptyClimate z).nt = s.nt ∧ (s.emptyClimate z).zt = s.zt
      ∧ (s.emptyClimate z).lu = s.lu ∧ (s.emptyClimate z).cat = s.cat ∧ (s.emptyClimate z).pt = s.pt
      ∧ (s.emptyClimate z).he0 = s.he0 ∧ (s.emptyClimate z).he1 = s.he1 ∧ (s.emptyClimate z).cs = s.cs := by
  unfold State.emptyClimate
  repeat' (first | split | dsimp only)
  all_goals simp

@[simp] theorem State.epochExpiry_frame (s : State) :
    (s.epochExpiry).pending = s.pending ∧ (s.epochExpiry).nt = s.nt ∧ (s.epochExpiry).zt = s.zt
      ∧ (s.epochExpiry).lu = s.lu ∧ (s.epochExpiry).pt = s.pt ∧ (s.epochExpiry).he0 = s.he0
      ∧ (s.epochExpiry).he1 = s.he1 ∧ (s.epochExpiry).cs = s.cs := by
  unfold State.epochExpiry
  repeat' (first | split | dsimp only)
  all_goals simp

@[simp] theorem State.workPendingEpochs_frame (s : State) :
    (s.workPendingEpochs).pending = s.pending ∧ (s.workPendingEpochs).nt = s.nt ∧ (s.workPendingEpochs).zt = s.zt
      ∧ (s.workPendingEpochs).lu = s.lu ∧ (s.workPendingEpochs).pt = s.pt ∧ (s.workPendingEpochs).he0 = s.he0
      ∧ (s.workPendingEpochs).he1 = s.he1 ∧ (s.workPendingEpochs).cs = s.cs := by
  refine ⟨?_, ?_, ?_, ?_, ?_, ?_, ?_, ?_⟩
  · exact foldl_keeps State.pending State.epochWork (fun s e => by simp) _ _
  · exact foldl_keeps State.nt State.epochWork (fun s e => by simp) _ _
  · exact foldl_keeps State.zt State.epochWork (fun s e => by simp) _ _
  · exact foldl_keeps State.lu State.epochWork (fun s e => by simp) _ _
  · exact foldl_keeps State.pt State.epochWork (fun s e => by simp) _ _
  · exact foldl_keeps State.he0 State.epochWork (fun s e => by simp) _ _
  · exact foldl_keeps State.he1 State.epochWork (fun s e => by simp) _ _
  · exact foldl_keeps State.cs State.epochWork (fun s e => by simp) _ _

@[simp] theorem State.answerResult_frame (s : State) (h : Hatch) (d : Nat) (c : ResultCode) :
    (s.answerResult h d c).pending = s.pending ∧ (s.answerResult h d c).nt = s.nt ∧ (s.answerResult h d c).zt = s.zt
      ∧ (s.answerResult h d c).lu = s.lu ∧ (s.answerResult h d c).cu = s.cu ∧ (s.answerResult h d c).cat = s.cat
      ∧ (s.answerResult h d c).pt = s.pt ∧ (s.answerResult h d c).he0 = s.he0 ∧ (s.answerResult h d c).he1 = s.he1
      ∧ (s.answerResult h d c).cs = s.cs := by
  unfold State.answerResult
  repeat' (first | split | dsimp only)
  all_goals simp

@[simp] theorem State.endResult_frame (s : State) (h : Hatch) (k : NodeClass) (c : ResultCode) :
    (s.endResult h k c).pending = s.pending ∧ (s.endResult h k c).nt = s.nt ∧ (s.endResult h k c).zt = s.zt
      ∧ (s.endResult h k c).lu = s.lu ∧ (s.endResult h k c).cu = s.cu ∧ (s.endResult h k c).cat = s.cat
      ∧ (s.endResult h k c).pt = s.pt ∧ (s.endResult h k c).he0 = s.he0 ∧ (s.endResult h k c).he1 = s.he1
      ∧ (s.endResult h k c).cs = s.cs := by
  unfold State.endResult
  repeat' (first | split | dsimp only)
  all_goals simp

@[simp] theorem State.endExchange_frame (s : State) (h : Hatch) (c : HandoverCause) (l : List (Nat × Label)) (d : Option Nat) (g : Option (Nat × Nat)) :
    (s.endExchange h c l d g).pending = s.pending ∧ (s.endExchange h c l d g).nt = s.nt
      ∧ (s.endExchange h c l d g).zt = s.zt ∧ (s.endExchange h c l d g).lu = s.lu
      ∧ (s.endExchange h c l d g).cu = s.cu ∧ (s.endExchange h c l d g).cat = s.cat
      ∧ (s.endExchange h c l d g).pt = s.pt ∧ (s.endExchange h c l d g).cs = s.cs := by
  unfold State.endExchange
  repeat' (first | split | dsimp only)
  all_goals simp

@[simp] theorem State.abortOne_frame (s : State) (i : Nat) :
    (s.abortOne i).pending = s.pending ∧ (s.abortOne i).nt = s.nt ∧ (s.abortOne i).zt = s.zt
      ∧ (s.abortOne i).lu = s.lu ∧ (s.abortOne i).cu = s.cu ∧ (s.abortOne i).pt = s.pt ∧ (s.abortOne i).he0 = s.he0
      ∧ (s.abortOne i).he1 = s.he1 ∧ (s.abortOne i).cs = s.cs := by
  unfold State.abortOne
  repeat' (first | split | dsimp only)
  all_goals simp

@[simp] theorem State.abortExchange_frame (s : State) (h : Hatch) (c : HandoverCause) :
    (s.abortExchange h c).pending = s.pending ∧ (s.abortExchange h c).nt = s.nt ∧ (s.abortExchange h c).zt = s.zt
      ∧ (s.abortExchange h c).lu = s.lu ∧ (s.abortExchange h c).cu = s.cu ∧ (s.abortExchange h c).pt = s.pt
      ∧ (s.abortExchange h c).cs = s.cs := by
  unfold State.abortExchange
  refine ⟨?_, ?_, ?_, ?_, ?_, ?_, ?_⟩
  · (repeat' split) <;> simp <;> exact foldl_keeps State.pending _ (fun s a => by simp) _ _
  · (repeat' split) <;> simp <;> exact foldl_keeps State.nt _ (fun s a => by simp) _ _
  · (repeat' split) <;> simp <;> exact foldl_keeps State.zt _ (fun s a => by simp) _ _
  · (repeat' split) <;> simp <;> exact foldl_keeps State.lu _ (fun s a => by simp) _ _
  · (repeat' split) <;> simp <;> exact foldl_keeps State.cu _ (fun s a => by simp) _ _
  · (repeat' split) <;> simp <;> exact foldl_keeps State.pt _ (fun s a => by simp) _ _
  · (repeat' split) <;> simp <;> exact foldl_keeps State.cs _ (fun s a => by simp) _ _

@[simp] theorem State.handOut_frame (s : State) (k : Option Nat) (d i : Nat) :
    (State.handOut k d s i).pending = s.pending ∧ (State.handOut k d s i).nt = s.nt
      ∧ (State.handOut k d s i).zt = s.zt ∧ (State.handOut k d s i).lu = s.lu ∧ (State.handOut k d s i).cu = s.cu
      ∧ (State.handOut k d s i).he0 = s.he0 ∧ (State.handOut k d s i).he1 = s.he1 ∧ (State.handOut k d s i).cs = s.cs := by
  unfold State.handOut
  (repeat' split) <;> simp

@[simp] theorem State.commitOut_frame (s : State) (h : Hatch) :
    (s.commitOut h).pending = s.pending ∧ (s.commitOut h).nt = s.nt ∧ (s.commitOut h).zt = s.zt
      ∧ (s.commitOut h).lu = s.lu ∧ (s.commitOut h).cu = s.cu ∧ (s.commitOut h).cs = s.cs := by
  unfold State.commitOut
  refine ⟨?_, ?_, ?_, ?_, ?_, ?_⟩
  · (repeat' split) <;> simp <;> exact foldl_keeps State.pending _ (fun s a => by simp) _ _
  · (repeat' split) <;> simp <;> exact foldl_keeps State.nt _ (fun s a => by simp) _ _
  · (repeat' split) <;> simp <;> exact foldl_keeps State.zt _ (fun s a => by simp) _ _
  · (repeat' split) <;> simp <;> exact foldl_keeps State.lu _ (fun s a => by simp) _ _
  · (repeat' split) <;> simp <;> exact foldl_keeps State.cu _ (fun s a => by simp) _ _
  · (repeat' split) <;> simp <;> exact foldl_keeps State.cs _ (fun s a => by simp) _ _

@[simp] theorem State.takeIn_frame (s : State) (z : Option Nat) (a i : Nat) :
    (State.takeIn z a s i).pending = s.pending ∧ (State.takeIn z a s i).lif = s.lif
      ∧ (State.takeIn z a s i).nt = s.nt ∧ (State.takeIn z a s i).zt = s.zt ∧ (State.takeIn z a s i).lu = s.lu
      ∧ (State.takeIn z a s i).cu = s.cu ∧ (State.takeIn z a s i).pc = s.pc ∧ (State.takeIn z a s i).fz = s.fz
      ∧ (State.takeIn z a s i).la = s.la ∧ (State.takeIn z a s i).ol = s.ol ∧ (State.takeIn z a s i).he0 = s.he0
      ∧ (State.takeIn z a s i).he1 = s.he1 ∧ (State.takeIn z a s i).ti = s.ti ∧ (State.takeIn z a s i).cs = s.cs := by
  unfold State.takeIn
  (repeat' split) <;> simp

@[simp] theorem State.commitIn_frame (s : State) (h : Hatch) (c : HandoverCause) :
    (s.commitIn h c).pending = s.pending ∧ (s.commitIn h c).nt = s.nt ∧ (s.commitIn h c).zt = s.zt
      ∧ (s.commitIn h c).lu = s.lu ∧ (s.commitIn h c).cu = s.cu ∧ (s.commitIn h c).cs = s.cs := by
  unfold State.commitIn
  refine ⟨?_, ?_, ?_, ?_, ?_, ?_⟩
  · (repeat' split) <;> simp <;> exact foldl_keeps State.pending _ (fun s a => by simp) _ _
  · (repeat' split) <;> simp <;> exact foldl_keeps State.nt _ (fun s a => by simp) _ _
  · (repeat' split) <;> simp <;> exact foldl_keeps State.zt _ (fun s a => by simp) _ _
  · (repeat' split) <;> simp <;> exact foldl_keeps State.lu _ (fun s a => by simp) _ _
  · (repeat' split) <;> simp <;> exact foldl_keeps State.cu _ (fun s a => by simp) _ _
  · (repeat' split) <;> simp <;> exact foldl_keeps State.cs _ (fun s a => by simp) _ _

@[simp] theorem State.engineFire_frame (s : State) (h : Hatch) :
    (s.engineFire h).pending = s.pending ∧ (s.engineFire h).nt = s.nt ∧ (s.engineFire h).zt = s.zt
      ∧ (s.engineFire h).lu = s.lu ∧ (s.engineFire h).cu = s.cu ∧ (s.engineFire h).cs = s.cs := by
  unfold State.engineFire
  repeat' (first | split | dsimp only)
  all_goals simp

@[simp] theorem State.enterIntake_frame (s : State) (h : Hatch) :
    (s.enterIntake h).pending = s.pending ∧ (s.enterIntake h).nt = s.nt ∧ (s.enterIntake h).zt = s.zt
      ∧ (s.enterIntake h).lu = s.lu ∧ (s.enterIntake h).cu = s.cu ∧ (s.enterIntake h).cs = s.cs := by
  unfold State.enterIntake
  repeat' (first | split | dsimp only)
  all_goals simp

@[simp] theorem State.engineDoor_frame (s : State) (h : Hatch) (d : DoorState) :
    (s.engineDoor h d).pending = s.pending ∧ (s.engineDoor h d).nt = s.nt ∧ (s.engineDoor h d).zt = s.zt
      ∧ (s.engineDoor h d).lu = s.lu ∧ (s.engineDoor h d).cu = s.cu ∧ (s.engineDoor h d).cs = s.cs := by
  unfold State.engineDoor
  repeat' (first | split | dsimp only)
  all_goals simp

@[simp] theorem State.enterRelease_frame (s : State) (h : Hatch) (a : Nat) :
    (s.enterRelease h a).pending = s.pending ∧ (s.enterRelease h a).nt = s.nt ∧ (s.enterRelease h a).zt = s.zt
      ∧ (s.enterRelease h a).lu = s.lu ∧ (s.enterRelease h a).cu = s.cu ∧ (s.enterRelease h a).cs = s.cs := by
  unfold State.enterRelease
  repeat' (first | split | dsimp only)
  all_goals simp

@[simp] theorem State.evalFault_frame (s : State) :
    (s.evalFault).pending = s.pending ∧ (s.evalFault).lif = s.lif ∧ (s.evalFault).nt = s.nt ∧ (s.evalFault).zt = s.zt
      ∧ (s.evalFault).cu = s.cu ∧ (s.evalFault).pc = s.pc ∧ (s.evalFault).fz = s.fz ∧ (s.evalFault).la = s.la
      ∧ (s.evalFault).cat = s.cat ∧ (s.evalFault).ol = s.ol ∧ (s.evalFault).pt = s.pt ∧ (s.evalFault).he0 = s.he0
      ∧ (s.evalFault).he1 = s.he1 ∧ (s.evalFault).ti = s.ti ∧ (s.evalFault).cs = s.cs := by
  unfold State.evalFault
  repeat' (first | split | dsimp only)
  all_goals simp

@[simp] theorem State.driveRelease_frame (s : State) (z : Nat) (b : Bool) :
    (s.driveRelease z b).pending = s.pending ∧ (s.driveRelease z b).lif = s.lif ∧ (s.driveRelease z b).nt = s.nt
      ∧ (s.driveRelease z b).zt = s.zt ∧ (s.driveRelease z b).cu = s.cu ∧ (s.driveRelease z b).pc = s.pc
      ∧ (s.driveRelease z b).fz = s.fz ∧ (s.driveRelease z b).la = s.la ∧ (s.driveRelease z b).cat = s.cat
      ∧ (s.driveRelease z b).ol = s.ol ∧ (s.driveRelease z b).pt = s.pt ∧ (s.driveRelease z b).he0 = s.he0
      ∧ (s.driveRelease z b).he1 = s.he1 ∧ (s.driveRelease z b).ti = s.ti ∧ (s.driveRelease z b).cs = s.cs := by
  unfold State.driveRelease
  repeat' (first | split | dsimp only)
  all_goals simp

@[simp] theorem State.reloadConditions_frame (s : State) :
    (s.reloadConditions).pending = s.pending ∧ (s.reloadConditions).lif = s.lif ∧ (s.reloadConditions).nt = s.nt
      ∧ (s.reloadConditions).zt = s.zt ∧ (s.reloadConditions).cu = s.cu ∧ (s.reloadConditions).pc = s.pc
      ∧ (s.reloadConditions).fz = s.fz ∧ (s.reloadConditions).la = s.la ∧ (s.reloadConditions).cat = s.cat
      ∧ (s.reloadConditions).ol = s.ol ∧ (s.reloadConditions).pt = s.pt ∧ (s.reloadConditions).he0 = s.he0
      ∧ (s.reloadConditions).he1 = s.he1 ∧ (s.reloadConditions).ti = s.ti ∧ (s.reloadConditions).cs = s.cs := by
  refine ⟨?_, ?_, ?_, ?_, ?_, ?_, ?_, ?_, ?_, ?_, ?_, ?_, ?_, ?_, ?_⟩ <;> rfl

@[simp] theorem State.queueRelease_frame (s : State) (z : Nat) :
    (s.queueRelease z).pending = s.pending ∧ (s.queueRelease z).nt = s.nt ∧ (s.queueRelease z).zt = s.zt
      ∧ (s.queueRelease z).lu = s.lu ∧ (s.queueRelease z).cu = s.cu ∧ (s.queueRelease z).cat = s.cat
      ∧ (s.queueRelease z).pt = s.pt ∧ (s.queueRelease z).he0 = s.he0 ∧ (s.queueRelease z).he1 = s.he1
      ∧ (s.queueRelease z).cs = s.cs := by
  unfold State.queueRelease
  repeat' (first | split | dsimp only)
  all_goals simp

@[simp] theorem State.postReleaseFault_frame (s : State) (z : Nat) (f : Bool) :
    (s.postReleaseFault z f).pending = s.pending ∧ (s.postReleaseFault z f).lif = s.lif
      ∧ (s.postReleaseFault z f).nt = s.nt ∧ (s.postReleaseFault z f).zt = s.zt ∧ (s.postReleaseFault z f).lu = s.lu
      ∧ (s.postReleaseFault z f).cu = s.cu ∧ (s.postReleaseFault z f).pc = s.pc ∧ (s.postReleaseFault z f).fz = s.fz
      ∧ (s.postReleaseFault z f).la = s.la ∧ (s.postReleaseFault z f).cat = s.cat
      ∧ (s.postReleaseFault z f).ol = s.ol ∧ (s.postReleaseFault z f).pt = s.pt
      ∧ (s.postReleaseFault z f).he0 = s.he0 ∧ (s.postReleaseFault z f).he1 = s.he1
      ∧ (s.postReleaseFault z f).cs = s.cs := by
  refine ⟨?_, ?_, ?_, ?_, ?_, ?_, ?_, ?_, ?_, ?_, ?_, ?_, ?_, ?_, ?_⟩ <;> rfl

@[simp] theorem State.releaseOutcome_frame (s : State) (z : Nat) (l : Bool) (n : Nat) (o : TxOutcome) :
    (s.releaseOutcome z l n o).pending = s.pending ∧ (s.releaseOutcome z l n o).lif = s.lif
      ∧ (s.releaseOutcome z l n o).nt = s.nt ∧ (s.releaseOutcome z l n o).zt = s.zt
      ∧ (s.releaseOutcome z l n o).lu = s.lu ∧ (s.releaseOutcome z l n o).cu = s.cu
      ∧ (s.releaseOutcome z l n o).pc = s.pc ∧ (s.releaseOutcome z l n o).la = s.la
      ∧ (s.releaseOutcome z l n o).cat = s.cat ∧ (s.releaseOutcome z l n o).ol = s.ol
      ∧ (s.releaseOutcome z l n o).pt = s.pt ∧ (s.releaseOutcome z l n o).he0 = s.he0
      ∧ (s.releaseOutcome z l n o).he1 = s.he1 ∧ (s.releaseOutcome z l n o).cs = s.cs := by
  unfold State.releaseOutcome
  repeat' (first | split | dsimp only)
  all_goals simp

@[simp] theorem State.evalFireActive_frame (s : State) :
    (s.evalFireActive).pending = s.pending ∧ (s.evalFireActive).nt = s.nt ∧ (s.evalFireActive).zt = s.zt
      ∧ (s.evalFireActive).lu = s.lu ∧ (s.evalFireActive).cu = s.cu ∧ (s.evalFireActive).cs = s.cs := by
  unfold State.evalFireActive
  repeat' (first | split | dsimp only)
  all_goals simp

@[simp] theorem State.postFireState_frame (s : State) (z : Nat) (b : FireState) (c : FireCause) (a : Option Nat) :
    (s.postFireState z b c a).pending = s.pending ∧ (s.postFireState z b c a).lif = s.lif
      ∧ (s.postFireState z b c a).nt = s.nt ∧ (s.postFireState z b c a).zt = s.zt
      ∧ (s.postFireState z b c a).lu = s.lu ∧ (s.postFireState z b c a).cu = s.cu
      ∧ (s.postFireState z b c a).pc = s.pc ∧ (s.postFireState z b c a).fz = s.fz
      ∧ (s.postFireState z b c a).la = s.la ∧ (s.postFireState z b c a).cat = s.cat
      ∧ (s.postFireState z b c a).ol = s.ol ∧ (s.postFireState z b c a).pt = s.pt
      ∧ (s.postFireState z b c a).he0 = s.he0 ∧ (s.postFireState z b c a).he1 = s.he1
      ∧ (s.postFireState z b c a).cs = s.cs := by
  refine ⟨?_, ?_, ?_, ?_, ?_, ?_, ?_, ?_, ?_, ?_, ?_, ?_, ?_, ?_, ?_⟩ <;> rfl

@[simp] theorem State.tellHatchEngine_frame (s : State) (z : Nat) :
    (s.tellHatchEngine z).pending = s.pending ∧ (s.tellHatchEngine z).nt = s.nt ∧ (s.tellHatchEngine z).zt = s.zt
      ∧ (s.tellHatchEngine z).lu = s.lu ∧ (s.tellHatchEngine z).cu = s.cu ∧ (s.tellHatchEngine z).cs = s.cs := by
  unfold State.tellHatchEngine
  repeat' (first | split | dsimp only)
  all_goals simp

@[simp] theorem State.handOn_frame (s : State) (z : Nat) (b : FireState) :
    (s.handOn z b).pending = s.pending ∧ (s.handOn z b).nt = s.nt ∧ (s.handOn z b).zt = s.zt
      ∧ (s.handOn z b).cu = s.cu ∧ (s.handOn z b).cs = s.cs := by
  unfold State.handOn
  dsimp only
  refine ⟨?_, ?_, ?_, ?_, ?_⟩ <;>
    (simp only [State.evalFireActive_frame, State.tellHatchEngine_frame, State.ordersFire_frame]; (repeat' split) <;> simp)

@[simp] theorem State.changeFire_frame (s : State) (z : Nat) (c : FireCause) (a : Option Nat) (f : Fire → Fire) :
    (s.changeFire z c a f).pending = s.pending ∧ (s.changeFire z c a f).nt = s.nt ∧ (s.changeFire z c a f).zt = s.zt
      ∧ (s.changeFire z c a f).cu = s.cu ∧ (s.changeFire z c a f).cs = s.cs := by
  unfold State.changeFire
  repeat' (first | split | dsimp only)
  all_goals simp

@[simp] theorem State.loadCountdown_frame (s : State) (z : Nat) (c : FireCause) :
    (s.loadCountdown z c).pending = s.pending ∧ (s.loadCountdown z c).nt = s.nt ∧ (s.loadCountdown z c).zt = s.zt
      ∧ (s.loadCountdown z c).cu = s.cu ∧ (s.loadCountdown z c).cs = s.cs := by
  unfold State.loadCountdown
  repeat' (first | split | dsimp only)
  all_goals simp

@[simp] theorem State.dischargeCheck_frame (s : State) (z : Nat) :
    (s.dischargeCheck z).pending = s.pending ∧ (s.dischargeCheck z).nt = s.nt ∧ (s.dischargeCheck z).zt = s.zt
      ∧ (s.dischargeCheck z).cu = s.cu ∧ (s.dischargeCheck z).cs = s.cs := by
  unfold State.dischargeCheck
  repeat' (first | split | dsimp only)
  all_goals simp

@[simp] theorem State.confirmFire_frame (s : State) (z : Nat) (c : FireCause) (a : Option Nat) :
    (s.confirmFire z c a).pending = s.pending ∧ (s.confirmFire z c a).nt = s.nt ∧ (s.confirmFire z c a).zt = s.zt
      ∧ (s.confirmFire z c a).cu = s.cu ∧ (s.confirmFire z c a).cs = s.cs := by
  unfold State.confirmFire
  repeat' (first | split | dsimp only)
  all_goals simp

@[simp] theorem State.firstAlarm_frame (s : State) (z d : Nat) :
    (s.firstAlarm z d).pending = s.pending ∧ (s.firstAlarm z d).nt = s.nt ∧ (s.firstAlarm z d).zt = s.zt
      ∧ (s.firstAlarm z d).cu = s.cu ∧ (s.firstAlarm z d).cs = s.cs := by
  unfold State.firstAlarm
  repeat' (first | split | dsimp only)
  all_goals simp

@[simp] theorem State.alarm_frame (s : State) (z d : Nat) :
    (s.alarm z d).pending = s.pending ∧ (s.alarm z d).nt = s.nt ∧ (s.alarm z d).zt = s.zt ∧ (s.alarm z d).cu = s.cu
      ∧ (s.alarm z d).cs = s.cs := by
  unfold State.alarm
  repeat' (first | split | dsimp only)
  all_goals simp

@[simp] theorem State.restoreDetector_frame (s : State) (z d : Nat) :
    (s.restoreDetector z d).pending = s.pending ∧ (s.restoreDetector z d).lif = s.lif
      ∧ (s.restoreDetector z d).nt = s.nt ∧ (s.restoreDetector z d).zt = s.zt ∧ (s.restoreDetector z d).lu = s.lu
      ∧ (s.restoreDetector z d).cu = s.cu ∧ (s.restoreDetector z d).pc = s.pc ∧ (s.restoreDetector z d).la = s.la
      ∧ (s.restoreDetector z d).cat = s.cat ∧ (s.restoreDetector z d).ol = s.ol ∧ (s.restoreDetector z d).pt = s.pt
      ∧ (s.restoreDetector z d).he0 = s.he0 ∧ (s.restoreDetector z d).he1 = s.he1 ∧ (s.restoreDetector z d).ti = s.ti
      ∧ (s.restoreDetector z d).cs = s.cs := by
  unfold State.restoreDetector
  repeat' (first | split | dsimp only)
  all_goals simp

@[simp] theorem State.healthyCount_frame (s : State) (z n : Nat) :
    (s.healthyCount z n).pending = s.pending ∧ (s.healthyCount z n).nt = s.nt ∧ (s.healthyCount z n).zt = s.zt
      ∧ (s.healthyCount z n).cu = s.cu ∧ (s.healthyCount z n).cs = s.cs := by
  unfold State.healthyCount
  repeat' (first | split | dsimp only)
  all_goals simp

@[simp] theorem State.dropDetector_frame (s : State) (z d : Nat) :
    (s.dropDetector z d).pending = s.pending ∧ (s.dropDetector z d).lif = s.lif ∧ (s.dropDetector z d).nt = s.nt
      ∧ (s.dropDetector z d).zt = s.zt ∧ (s.dropDetector z d).lu = s.lu ∧ (s.dropDetector z d).cu = s.cu
      ∧ (s.dropDetector z d).pc = s.pc ∧ (s.dropDetector z d).la = s.la ∧ (s.dropDetector z d).cat = s.cat
      ∧ (s.dropDetector z d).ol = s.ol ∧ (s.dropDetector z d).pt = s.pt ∧ (s.dropDetector z d).he0 = s.he0
      ∧ (s.dropDetector z d).he1 = s.he1 ∧ (s.dropDetector z d).ti = s.ti ∧ (s.dropDetector z d).cs = s.cs := by
  refine ⟨?_, ?_, ?_, ?_, ?_, ?_, ?_, ?_, ?_, ?_, ?_, ?_, ?_, ?_, ?_⟩ <;> rfl

@[simp] theorem State.panelActive_frame (s : State) (z : Nat) :
    (s.panelActive z).pending = s.pending ∧ (s.panelActive z).nt = s.nt ∧ (s.panelActive z).zt = s.zt
      ∧ (s.panelActive z).cu = s.cu ∧ (s.panelActive z).cs = s.cs := by
  unfold State.panelActive
  repeat' (first | split | dsimp only)
  all_goals simp

@[simp] theorem State.manualActive_frame (s : State) (z : Nat) :
    (s.manualActive z).pending = s.pending ∧ (s.manualActive z).nt = s.nt ∧ (s.manualActive z).zt = s.zt
      ∧ (s.manualActive z).cu = s.cu ∧ (s.manualActive z).cs = s.cs := by
  unfold State.manualActive
  repeat' (first | split | dsimp only)
  all_goals simp

@[simp] theorem State.abortActive_frame (s : State) (z : Nat) :
    (s.abortActive z).pending = s.pending ∧ (s.abortActive z).nt = s.nt ∧ (s.abortActive z).zt = s.zt
      ∧ (s.abortActive z).cu = s.cu ∧ (s.abortActive z).cs = s.cs := by
  unfold State.abortActive
  repeat' (first | split | dsimp only)
  all_goals simp

@[simp] theorem State.abortReleased_frame (s : State) (z : Nat) :
    (s.abortReleased z).pending = s.pending ∧ (s.abortReleased z).nt = s.nt ∧ (s.abortReleased z).zt = s.zt
      ∧ (s.abortReleased z).cu = s.cu ∧ (s.abortReleased z).cs = s.cs := by
  unfold State.abortReleased
  repeat' (first | split | dsimp only)
  all_goals simp

@[simp] theorem State.dischargeActive_frame (s : State) (z : Nat) :
    (s.dischargeActive z).pending = s.pending ∧ (s.dischargeActive z).nt = s.nt ∧ (s.dischargeActive z).zt = s.zt
      ∧ (s.dischargeActive z).cu = s.cu ∧ (s.dischargeActive z).cs = s.cs := by
  unfold State.dischargeActive
  repeat' (first | split | dsimp only)
  all_goals simp

@[simp] theorem State.resetFire_frame (s : State) (z : Nat) :
    (s.resetFire z).pending = s.pending ∧ (s.resetFire z).nt = s.nt ∧ (s.resetFire z).zt = s.zt
      ∧ (s.resetFire z).cu = s.cu ∧ (s.resetFire z).cs = s.cs := by
  unfold State.resetFire
  repeat' (first | split | dsimp only)
  all_goals simp

@[simp] theorem State.isolateZone_frame (s : State) (z : Nat) :
    (s.isolateZone z).pending = s.pending ∧ (s.isolateZone z).nt = s.nt ∧ (s.isolateZone z).zt = s.zt
      ∧ (s.isolateZone z).cu = s.cu ∧ (s.isolateZone z).cs = s.cs := by
  unfold State.isolateZone
  repeat' (first | split | dsimp only)
  all_goals simp

@[simp] theorem State.replayAlarm_frame (s : State) (z : Nat) :
    (s.replayAlarm z).pending = s.pending ∧ (s.replayAlarm z).nt = s.nt ∧ (s.replayAlarm z).zt = s.zt
      ∧ (s.replayAlarm z).cu = s.cu ∧ (s.replayAlarm z).cs = s.cs := by
  unfold State.replayAlarm
  repeat' (first | split | dsimp only)
  all_goals simp

@[simp] theorem State.restoreZone_frame (s : State) (z : Nat) :
    (s.restoreZone z).pending = s.pending ∧ (s.restoreZone z).nt = s.nt ∧ (s.restoreZone z).zt = s.zt
      ∧ (s.restoreZone z).cu = s.cu ∧ (s.restoreZone z).cs = s.cs := by
  unfold State.restoreZone
  repeat' (first | split | dsimp only)
  all_goals simp

@[simp] theorem State.removeFireZone_frame (s : State) (z : Nat) :
    (s.removeFireZone z).pending = s.pending ∧ (s.removeFireZone z).nt = s.nt ∧ (s.removeFireZone z).zt = s.zt
      ∧ (s.removeFireZone z).cu = s.cu ∧ (s.removeFireZone z).cs = s.cs := by
  unfold State.removeFireZone
  repeat' (first | split | dsimp only)
  all_goals simp

@[simp] theorem State.offerFire_frame (s : State) :
    s.offerFire.1.pending = s.pending ∧ s.offerFire.1.nt = s.nt ∧ s.offerFire.1.zt = s.zt
      ∧ s.offerFire.1.lu = s.lu ∧ s.offerFire.1.cu = s.cu ∧ s.offerFire.1.pc = s.pc
      ∧ s.offerFire.1.la = s.la ∧ s.offerFire.1.cat = s.cat ∧ s.offerFire.1.ol = s.ol
      ∧ s.offerFire.1.pt = s.pt ∧ s.offerFire.1.he0 = s.he0 ∧ s.offerFire.1.he1 = s.he1
      ∧ s.offerFire.1.ti = s.ti ∧ s.offerFire.1.cs = s.cs := by
  unfold State.offerFire
  repeat' (first | split | dsimp only)
  all_goals simp

@[simp] theorem State.recountDown_frame (s : State) :
    (s.recountDown).pending = s.pending ∧ (s.recountDown).lif = s.lif ∧ (s.recountDown).zt = s.zt
      ∧ (s.recountDown).cu = s.cu ∧ (s.recountDown).pc = s.pc ∧ (s.recountDown).fz = s.fz ∧ (s.recountDown).la = s.la
      ∧ (s.recountDown).cat = s.cat ∧ (s.recountDown).ol = s.ol ∧ (s.recountDown).pt = s.pt
      ∧ (s.recountDown).he0 = s.he0 ∧ (s.recountDown).he1 = s.he1 ∧ (s.recountDown).ti = s.ti
      ∧ (s.recountDown).cs = s.cs := by
  unfold State.recountDown
  repeat' (first | split | dsimp only)
  all_goals simp

@[simp] theorem State.recountHealthy_frame (s : State) (z : Nat) :
    (s.recountHealthy z).pending = s.pending ∧ (s.recountHealthy z).zt = s.zt ∧ (s.recountHealthy z).cu = s.cu
      ∧ (s.recountHealthy z).cs = s.cs := by
  unfold State.recountHealthy
  repeat' (first | split | dsimp only)
  all_goals simp

@[simp] theorem State.recountDetectors_frame (s : State) (z : Nat) :
    (s.recountDetectors z).pending = s.pending ∧ (s.recountDetectors z).lif = s.lif
      ∧ (s.recountDetectors z).zt = s.zt ∧ (s.recountDetectors z).cu = s.cu ∧ (s.recountDetectors z).pc = s.pc
      ∧ (s.recountDetectors z).fz = s.fz ∧ (s.recountDetectors z).la = s.la ∧ (s.recountDetectors z).cat = s.cat
      ∧ (s.recountDetectors z).ol = s.ol ∧ (s.recountDetectors z).pt = s.pt ∧ (s.recountDetectors z).he0 = s.he0
      ∧ (s.recountDetectors z).he1 = s.he1 ∧ (s.recountDetectors z).ti = s.ti ∧ (s.recountDetectors z).cs = s.cs := by
  unfold State.recountDetectors
  repeat' (first | split | dsimp only)
  all_goals simp

@[simp] theorem State.changeSupervision_frame (s : State) (a : Nat) (e : NodeEntry) (w : NodeReason) :
    (s.changeSupervision a e w).pending = s.pending ∧ (s.changeSupervision a e w).zt = s.zt
      ∧ (s.changeSupervision a e w).cu = s.cu ∧ (s.changeSupervision a e w).cs = s.cs := by
  unfold State.changeSupervision
  repeat' (first | split | dsimp only)
  all_goals simp

@[simp] theorem State.tellCommander_frame (s : State) (a : Nat) (c : NodeClass) (k : Byte) :
    (s.tellCommander a c k).pending = s.pending ∧ (s.tellCommander a c k).nt = s.nt ∧ (s.tellCommander a c k).zt = s.zt
      ∧ (s.tellCommander a c k).lu = s.lu ∧ (s.tellCommander a c k).cu = s.cu ∧ (s.tellCommander a c k).cat = s.cat
      ∧ (s.tellCommander a c k).pt = s.pt ∧ (s.tellCommander a c k).he0 = s.he0 ∧ (s.tellCommander a c k).he1 = s.he1
      ∧ (s.tellCommander a c k).cs = s.cs := by
  unfold State.tellCommander
  repeat' (first | split | dsimp only)
  all_goals simp

@[simp] theorem State.heardFrom_frame (s : State) (a : Nat) (e : NodeEntry) (k : Byte) :
    (s.heardFrom a e k).pending = s.pending ∧ (s.heardFrom a e k).zt = s.zt ∧ (s.heardFrom a e k).cu = s.cu
      ∧ (s.heardFrom a e k).cs = s.cs := by
  unfold State.heardFrom
  repeat' (first | split | dsimp only)
  all_goals simp

@[simp] theorem State.nodeAccepted_frame (s : State) (a : Nat) (k : Byte) :
    (s.nodeAccepted a k).pending = s.pending ∧ (s.nodeAccepted a k).zt = s.zt ∧ (s.nodeAccepted a k).cu = s.cu
      ∧ (s.nodeAccepted a k).cs = s.cs := by
  unfold State.nodeAccepted
  repeat' (first | split | dsimp only)
  all_goals simp

@[simp] theorem State.nodeNoAnswer_frame (s : State) (a : Nat) :
    (s.nodeNoAnswer a).pending = s.pending ∧ (s.nodeNoAnswer a).zt = s.zt ∧ (s.nodeNoAnswer a).cu = s.cu
      ∧ (s.nodeNoAnswer a).cs = s.cs := by
  unfold State.nodeNoAnswer
  repeat' (first | split | dsimp only)
  all_goals simp

@[simp] theorem State.unknownSource_frame (s : State) (a : Nat) (k : Byte) :
    (s.unknownSource a k).pending = s.pending ∧ (s.unknownSource a k).lif = s.lif ∧ (s.unknownSource a k).zt = s.zt
      ∧ (s.unknownSource a k).lu = s.lu ∧ (s.unknownSource a k).cu = s.cu ∧ (s.unknownSource a k).pc = s.pc
      ∧ (s.unknownSource a k).fz = s.fz ∧ (s.unknownSource a k).la = s.la ∧ (s.unknownSource a k).cat = s.cat
      ∧ (s.unknownSource a k).ol = s.ol ∧ (s.unknownSource a k).pt = s.pt ∧ (s.unknownSource a k).he0 = s.he0
      ∧ (s.unknownSource a k).he1 = s.he1 ∧ (s.unknownSource a k).cs = s.cs := by
  unfold State.unknownSource
  repeat' (first | split | dsimp only)
  all_goals simp

@[simp] theorem State.lineError_frame (s : State) (a : Nat) :
    (s.lineError a).pending = s.pending ∧ (s.lineError a).lif = s.lif ∧ (s.lineError a).zt = s.zt
      ∧ (s.lineError a).lu = s.lu ∧ (s.lineError a).cu = s.cu ∧ (s.lineError a).pc = s.pc ∧ (s.lineError a).fz = s.fz
      ∧ (s.lineError a).la = s.la ∧ (s.lineError a).cat = s.cat ∧ (s.lineError a).ol = s.ol
      ∧ (s.lineError a).pt = s.pt ∧ (s.lineError a).he0 = s.he0 ∧ (s.lineError a).he1 = s.he1
      ∧ (s.lineError a).ti = s.ti ∧ (s.lineError a).cs = s.cs := by
  unfold State.lineError
  repeat' (first | split | dsimp only)
  all_goals simp

@[simp] theorem State.conditionEdges_frame (s : State) (z : Nat) (b a : Conditions) :
    (s.conditionEdges z b a).pending = s.pending ∧ (s.conditionEdges z b a).nt = s.nt
      ∧ (s.conditionEdges z b a).zt = s.zt ∧ (s.conditionEdges z b a).cu = s.cu ∧ (s.conditionEdges z b a).cs = s.cs := by
  unfold State.conditionEdges
  repeat' (first | split | dsimp only)
  all_goals simp

@[simp] theorem State.settledEdge_frame (s : State) (z : Nat) :
    (s.settledEdge z).pending = s.pending ∧ (s.settledEdge z).nt = s.nt ∧ (s.settledEdge z).zt = s.zt
      ∧ (s.settledEdge z).cu = s.cu ∧ (s.settledEdge z).cs = s.cs := by
  unfold State.settledEdge
  repeat' (first | split | dsimp only)
  all_goals simp

@[simp] theorem State.popRing_frame (s : State) :
    (s.popRing).pending = s.pending ∧ (s.popRing).nt = s.nt ∧ (s.popRing).zt = s.zt ∧ (s.popRing).lu = s.lu
      ∧ (s.popRing).cu = s.cu ∧ (s.popRing).pc = s.pc ∧ (s.popRing).fz = s.fz ∧ (s.popRing).la = s.la
      ∧ (s.popRing).cat = s.cat ∧ (s.popRing).ol = s.ol ∧ (s.popRing).pt = s.pt ∧ (s.popRing).he0 = s.he0
      ∧ (s.popRing).he1 = s.he1 ∧ (s.popRing).ti = s.ti ∧ (s.popRing).cs = s.cs := by
  refine ⟨?_, ?_, ?_, ?_, ?_, ?_, ?_, ?_, ?_, ?_, ?_, ?_, ?_, ?_, ?_⟩ <;> rfl

@[simp] theorem State.quietLoop_frame (s : State) (q : Nat) :
    (s.quietLoop q).pending = s.pending ∧ (s.quietLoop q).nt = s.nt ∧ (s.quietLoop q).zt = s.zt
      ∧ (s.quietLoop q).lu = s.lu ∧ (s.quietLoop q).cu = s.cu ∧ (s.quietLoop q).pc = s.pc ∧ (s.quietLoop q).fz = s.fz
      ∧ (s.quietLoop q).la = s.la ∧ (s.quietLoop q).cat = s.cat ∧ (s.quietLoop q).ol = s.ol
      ∧ (s.quietLoop q).pt = s.pt ∧ (s.quietLoop q).he0 = s.he0 ∧ (s.quietLoop q).he1 = s.he1
      ∧ (s.quietLoop q).ti = s.ti ∧ (s.quietLoop q).cs = s.cs := by
  refine ⟨?_, ?_, ?_, ?_, ?_, ?_, ?_, ?_, ?_, ?_, ?_, ?_, ?_, ?_, ?_⟩ <;> rfl

@[simp] theorem State.setLoop_frame (s : State) (l : LoopState) :
    (s.setLoop l).pending = s.pending ∧ (s.setLoop l).nt = s.nt ∧ (s.setLoop l).zt = s.zt ∧ (s.setLoop l).lu = s.lu
      ∧ (s.setLoop l).cu = s.cu ∧ (s.setLoop l).pc = s.pc ∧ (s.setLoop l).fz = s.fz ∧ (s.setLoop l).la = s.la
      ∧ (s.setLoop l).cat = s.cat ∧ (s.setLoop l).ol = s.ol ∧ (s.setLoop l).pt = s.pt ∧ (s.setLoop l).he0 = s.he0
      ∧ (s.setLoop l).he1 = s.he1 ∧ (s.setLoop l).ti = s.ti ∧ (s.setLoop l).cs = s.cs := by
  refine ⟨?_, ?_, ?_, ?_, ?_, ?_, ?_, ?_, ?_, ?_, ?_, ?_, ?_, ?_, ?_⟩ <;> rfl

@[simp] theorem State.setAnswer_frame (s : State) (a : Option Answer) :
    (s.setAnswer a).pending = s.pending ∧ (s.setAnswer a).nt = s.nt ∧ (s.setAnswer a).zt = s.zt
      ∧ (s.setAnswer a).lu = s.lu ∧ (s.setAnswer a).cu = s.cu ∧ (s.setAnswer a).pc = s.pc ∧ (s.setAnswer a).fz = s.fz
      ∧ (s.setAnswer a).la = s.la ∧ (s.setAnswer a).cat = s.cat ∧ (s.setAnswer a).ol = s.ol
      ∧ (s.setAnswer a).pt = s.pt ∧ (s.setAnswer a).he0 = s.he0 ∧ (s.setAnswer a).he1 = s.he1
      ∧ (s.setAnswer a).ti = s.ti ∧ (s.setAnswer a).cs = s.cs := by
  refine ⟨?_, ?_, ?_, ?_, ?_, ?_, ?_, ?_, ?_, ?_, ?_, ?_, ?_, ?_, ?_⟩ <;> rfl

@[simp] theorem State.offerLock_frame (s : State) :
    (s.offerLock).pending = s.pending ∧ (s.offerLock).nt = s.nt ∧ (s.offerLock).zt = s.zt ∧ (s.offerLock).lu = s.lu
      ∧ (s.offerLock).cu = s.cu ∧ (s.offerLock).pc = s.pc ∧ (s.offerLock).fz = s.fz ∧ (s.offerLock).cat = s.cat
      ∧ (s.offerLock).ol = s.ol ∧ (s.offerLock).pt = s.pt ∧ (s.offerLock).he0 = s.he0 ∧ (s.offerLock).he1 = s.he1
      ∧ (s.offerLock).ti = s.ti ∧ (s.offerLock).cs = s.cs := by
  unfold State.offerLock
  repeat' (first | split | dsimp only)
  all_goals simp

@[simp] theorem State.offerPlace_frame (s : State) :
    (s.offerPlace).pending = s.pending ∧ (s.offerPlace).nt = s.nt ∧ (s.offerPlace).zt = s.zt
      ∧ (s.offerPlace).lu = s.lu ∧ (s.offerPlace).cu = s.cu ∧ (s.offerPlace).pc = s.pc ∧ (s.offerPlace).cat = s.cat
      ∧ (s.offerPlace).ol = s.ol ∧ (s.offerPlace).pt = s.pt ∧ (s.offerPlace).he0 = s.he0 ∧ (s.offerPlace).he1 = s.he1
      ∧ (s.offerPlace).ti = s.ti ∧ (s.offerPlace).cs = s.cs := by
  unfold State.offerPlace
  repeat' (first | split | dsimp only)
  all_goals simp

@[simp] theorem State.handOutcome_frame (s : State) (o : Origin) (d : Nat) (r : TxOutcome) :
    (s.handOutcome o d r).pending = s.pending ∧ (s.handOutcome o d r).nt = s.nt ∧ (s.handOutcome o d r).zt = s.zt
      ∧ (s.handOutcome o d r).lu = s.lu ∧ (s.handOutcome o d r).cu = s.cu ∧ (s.handOutcome o d r).cat = s.cat
      ∧ (s.handOutcome o d r).pt = s.pt ∧ (s.handOutcome o d r).he0 = s.he0 ∧ (s.handOutcome o d r).he1 = s.he1
      ∧ (s.handOutcome o d r).cs = s.cs := by
  unfold State.handOutcome
  repeat' (first | split | dsimp only)
  all_goals simp

@[simp] theorem State.departTx_frame (s : State) (i : TxItem) (r : TxOutcome) :
    (s.departTx i r).pending = s.pending ∧ (s.departTx i r).zt = s.zt ∧ (s.departTx i r).cu = s.cu
      ∧ (s.departTx i r).cs = s.cs := by
  unfold State.departTx
  repeat' (first | split | dsimp only)
  all_goals simp

@[simp] theorem State.emptySlot_frame (s : State) (i : TxItem) :
    (s.emptySlot i).pending = s.pending ∧ (s.emptySlot i).zt = s.zt ∧ (s.emptySlot i).cu = s.cu
      ∧ (s.emptySlot i).cs = s.cs := by
  unfold State.emptySlot
  repeat' (first | split | dsimp only)
  all_goals simp

@[simp] theorem State.busySlot_frame (s : State) (i : TxItem) :
    (s.busySlot i).pending = s.pending ∧ (s.busySlot i).zt = s.zt ∧ (s.busySlot i).cu = s.cu
      ∧ (s.busySlot i).cs = s.cs := by
  unfold State.busySlot
  repeat' (first | split | dsimp only)
  all_goals simp

end Sys2Proof.Machine
end

