-- ==== Sys2Proof/Laws/Kept.lean ====
section
/-! SUPPORT. What a predicate of states must survive (`Kept`, `KeptSent`, `KeptOut`, `KeptFire`), and that it then survives every shared
operation. A proof that every step keeps an invariant gives the few fields and cites the operations. -/

namespace Sys2Proof.Machine

/-- The predicate survives every update that the operations short of a change of fire state make. -/
structure Kept (P : State → Prop) : Prop where
  post : ∀ {s b}, P s → P (s.post b)
  passDownOutcome : ∀ {s o}, P s → P (s.passDownOutcome o)
  setLock : ∀ {s a l}, P s → P (s.setLock a l)
  delLock : ∀ {s a}, P s → P { s with la := { s.la with locks := Table.del s.la.locks a } }
  setActuator : ∀ {s z r a}, P s → P (s.setActuator z r a)
  delActuator : ∀ {s k}, P s → P { s with pc := { s.pc with actuators := Table.del s.pc.actuators k } }
  setOrder : ∀ {s o}, P s → P (s.setOrder o)
  delOrder : ∀ {s n}, P s → P { s with ol := { s.ol with orders := s.ol.orders.filter (fun p => p.number ≠ n) } }
  place : ∀ {s r}, P s → s.lif.txq.length < 24 → P (s.placeTx r)
  swap : ∀ {s v r}, P s → v ∈ s.lif.txq → P ((s.removeTx v.arrival).placeTx r)
  mapOrigins : ∀ {s f}, P s → P (s.mapOrigins f)
  flags : ∀ {s z u p}, P s → ((s.fire z).unconfirmed = true → u = true) →
    P (s.setFire z { s.fire z with unconfirmed := u, pendingRelease := p })
  alert : ∀ {s b}, P s → P { s with fz := { s.fz with pendingAlert := b } }
  setCartridge : ∀ {s i c}, P s → P (s.setCartridge i c)
  delCartridge : ∀ {s i}, P s → P { s with cat := { s.cat with cartridges := Table.del s.cat.cartridges i } }
  party : ∀ {s k p}, P s → P { s with pt := { s.pt with parties := Table.put s.pt.parties k p } }
  setEngine : ∀ {s h e}, P s → (e.list.length ≤ 48 ∨ e.list.length ≤ (s.engine h).list.length) → P (s.setEngine h e)
  setClimate : ∀ {s z c}, P s → P (s.setClimate z c)

/-- The predicate survives a confirmed release as well. -/
structure KeptSent (P : State → Prop) : Prop extends Kept P where
  cleared : ∀ {s z}, P s → P (s.setFire z { s.fire z with unconfirmed := false })

/-- The predicate survives the outputs and FIRE_ACTIVE as well. -/
structure KeptOut (P : State → Prop) : Prop extends KeptSent P where
  setActive : ∀ {s b}, P s → P { s with fz := { s.fz with fireActive := b } }
  fault : ∀ {s b}, P s → P { s with lu := { s.lu with fault := b } }
  release : ∀ {s q b}, P s → P { s with lu := { s.lu with release := s.lu.release.set q b } }
  conditions : ∀ {s z c}, P s → P { s with lu := { s.lu with conditions := s.lu.conditions.set z c } }

/-- The predicate survives a change of fire state and of the node entries as well. -/
structure KeptFire (P : State → Prop) : Prop extends KeptOut P where
  setFire : ∀ {s z f}, P s → (setWf (s.fire z).knock = true → setWf f.knock = true) →
    (setWf (s.fire z).alarm = true → setWf f.alarm = true) → P (s.setFire z f)
  setNode : ∀ {s a e}, P s → P (s.setNode a e)
  faultSilent : ∀ {s n}, P s → P { s with nt := { s.nt with faultSilent := n } }
  healthy : ∀ {s z n}, P s → P { s with nt := { s.nt with healthyCount := s.nt.healthyCount.set z n } }

/-- A fold of a kept step keeps the predicate. -/
theorem foldl_kept {α : Type} {P : State → Prop} {f : State → α → State} (h : ∀ s a, P s → P (f s a)) (l : List α)
    {s : State} (hs : P s) : P (l.foldl f s) := by
  induction l generalizing s with
  | nil => exact hs
  | cons a l ih => exact ih (h _ _ hs)

theorem Kept.killRelease {P : State → Prop} (k : Kept P) {s : State} {z : Nat} (h : P s) :
    P (s.killRelease z) := k.mapOrigins h

theorem Kept.killLockSet {P : State → Prop} (k : Kept P) {s : State} {a : Nat} (h : P s) :
    P (s.killLockSet a) := k.mapOrigins h

theorem Kept.killActSet {P : State → Prop} (k : Kept P) {s : State} {z : Nat} {r : Role} (h : P s) :
    P (s.killActSet z r) := k.mapOrigins h

theorem Kept.orphanActSet {P : State → Prop} (k : Kept P) {s : State} {z : Nat} {r : Role} (h : P s) :
    P (s.orphanActSet z r) := k.mapOrigins h

theorem Kept.detachPick {P : State → Prop} (k : Kept P) {s : State} {n : Nat} (h : P s) :
    P (s.detachPick n) := k.mapOrigins h

theorem Kept.lockDropped {P : State → Prop} (k : Kept P) {s : State} {a : Nat} {l : Bool} (h : P s) :
    P (s.lockDropped a l) := by
  unfold State.lockDropped
  repeat' (first | split | dsimp only)
  all_goals repeat' (first
    | assumption
    | with_reducible apply k.setLock)

theorem Kept.actDropped {P : State → Prop} (k : Kept P) {s : State} {z : Nat} {r : Role} {p : ActPurpose} {l : Bool} (h : P s) :
    P (s.actDropped z r p l) := by
  unfold State.actDropped
  repeat' (first | split | dsimp only)
  all_goals repeat' (first
    | assumption
    | with_reducible apply k.setActuator)

theorem Kept.pickDropped {P : State → Prop} (k : Kept P) {s : State} {n : Nat} {d : Bool} (h : P s) :
    P (s.pickDropped n d) := by
  unfold State.pickDropped
  repeat' (first | split | dsimp only)
  all_goals repeat' (first
    | assumption
    | with_reducible apply k.setOrder)

theorem Kept.dropped {P : State → Prop} (k : Kept P) {s : State} {o : Origin} (h : P s) :
    P (s.dropped o) := by
  cases o with
  | release z live =>
    show P (if live = true then _ else s)
    split
    · exact k.flags h id
    · exact h
  | alert => exact k.alert h
  | lockSet a live => exact k.lockDropped h
  | actSet z r p live => exact k.actDropped h
  | pick n d => exact k.pickDropped h
  | pickWithdraw => exact h
  | result e => exact h
  | passDown => exact k.passDownOutcome h

/-- TI's taking reads and writes nothing of the queue. -/
theorem State.takeNext_removeTx (s : State) (n : Nat) : (s.removeTx n).takeNext = s.takeNext.removeTx n := by
  unfold State.takeNext
  simp only [State.removeTx_frame]
  split
  · split <;> rfl
  · rfl

/-- The outcome DROPPED reads and writes nothing of the queue. -/
theorem State.dropped_removeTx (s : State) (n : Nat) (o : Origin) :
    (s.removeTx n).dropped o = (s.dropped o).removeTx n := by
  cases o
  case release z live => cases live <;> rfl
  case alert => rfl
  case pickWithdraw => rfl
  case result => rfl
  case lockSet a live =>
    simp only [State.dropped, State.lockDropped]
    cases live
    · rfl
    · show (match true, s.lock a with
        | true, some l => (s.removeTx n).setLock a { l with send := .pending }
        | _, _ => s.removeTx n) = _
      cases s.lock a <;> rfl
  case actSet z r p live =>
    simp only [State.dropped, State.actDropped]
    cases live
    · rfl
    · show (match true, s.actuator z r with
        | true, some a => _
        | _, _ => _) = _
      cases s.actuator z r
      · rfl
      · cases p <;> rfl
  case pick m d =>
    simp only [State.dropped, State.pickDropped]
    cases d
    · show (match false, s.order m with
        | false, some o => _
        | _, _ => _) = _
      cases s.order m <;> rfl
    · rfl
  case passDown =>
    simp only [State.dropped, State.passDownOutcome]
    show (match s.ti.inHand with
        | some (.passDown d) => _
        | some (.deciding ..) => _
        | some (.catalogueLoad ..) => _
        | some (.catalogueClear _) => _
        | none => _) = _
    rcases s.ti.inHand with _ | x
    · rfl
    · cases x
      case passDown d => exact State.takeNext_removeTx (s.dropHand.reply d .ok (.outcome .dropped)) n
      all_goals rfl

theorem evictee_mem {q : List TxItem} {c : TxClass} {v : TxItem} (h : evictee q c = some v) :
    v ∈ q ∧ evictable c v = true := by
  have key : ∀ r, ((q.filter (evictable c)).filter (fun it => decide (it.cls.rank = r))).getLast? = some v →
      v ∈ q ∧ evictable c v = true := by
    intro r hr
    have := List.mem_of_getLast? hr
    simp only [List.mem_filter] at this
    exact this.1
  unfold evictee at h
  dsimp only at h
  cases h0 : ((q.filter (evictable c)).filter (fun it => decide (it.cls.rank = 0))).getLast? with
  | some w => rw [h0] at h; cases h; exact key 0 h0
  | none =>
    rw [h0] at h
    cases h1 : ((q.filter (evictable c)).filter (fun it => decide (it.cls.rank = 1))).getLast? with
    | some w => rw [h1] at h; cases h; exact key 1 h1
    | none => rw [h1] at h; exact key 2 h

theorem Kept.requestTx {P : State → Prop} (k : Kept P) {s : State} {r : TxRequest} (h : P s) :
    P (s.requestTx r) := by
  unfold State.requestTx
  split
  · exact k.place h ‹_›
  · split
    · rename_i v hv
      rw [State.dropped_removeTx]
      exact k.swap (k.dropped h) (by simpa using (evictee_mem hv).1)
    · exact k.dropped h

theorem Kept.sendLock {P : State → Prop} (k : Kept P) {s : State} {a : Nat} (h : P s) :
    P (s.sendLock a) := by
  unfold State.sendLock
  repeat' (first | split | dsimp only)
  all_goals repeat' (first
    | assumption
    | with_reducible apply k.setLock
    | with_reducible apply k.requestTx)

theorem Kept.decideLock {P : State → Prop} (k : Kept P) {s : State} {a : Nat} (h : P s) :
    P (s.decideLock a) := by
  unfold State.decideLock
  repeat' (first | split | dsimp only)
  all_goals repeat' (first
    | assumption
    | with_reducible apply k.setLock
    | with_reducible apply k.sendLock)

theorem Kept.setClaims {P : State → Prop} (k : Kept P) {s : State} {a : Nat} {f : Claims → Claims} (h : P s) :
    P (s.setClaims a f) := by
  unfold State.setClaims
  repeat' (first | split | dsimp only)
  all_goals repeat' (first
    | assumption
    | with_reducible apply k.setLock
    | with_reducible apply k.decideLock)

theorem Kept.settleFireHold {P : State → Prop} (k : Kept P) {s : State} {a : Nat} (h : P s) :
    P (s.settleFireHold a) := by
  unfold State.settleFireHold
  repeat' (first | split | dsimp only)
  all_goals repeat' (first
    | assumption
    | with_reducible apply k.setClaims)

theorem Kept.settleFireHolds {P : State → Prop} (k : Kept P) {s : State} {as : List Nat} (h : P s) :
    P (s.settleFireHolds as) := foldl_kept (fun _ _ => k.settleFireHold) _ h

theorem Kept.dropHandoverClaim {P : State → Prop} (k : Kept P) {s : State} {e : Hatch} (h : P s) :
    P (s.dropHandoverClaim e) := by
  unfold State.dropHandoverClaim
  repeat' (first | split | dsimp only)
  all_goals repeat' (first
    | assumption
    | with_reducible apply k.setClaims)

theorem Kept.createLock {P : State → Prop} (k : Kept P) {s : State} {a : Nat} (h : P s) :
    P (s.createLock a) := by
  unfold State.createLock
  repeat' (first | split | dsimp only)
  all_goals repeat' (first
    | assumption
    | with_reducible apply k.setLock
    | with_reducible apply k.sendLock
    | with_reducible apply k.settleFireHold)

theorem Kept.removeLock {P : State → Prop} (k : Kept P) {s : State} {a : Nat} (h : P s) :
    P (s.removeLock a) := k.killLockSet (k.delLock h)

theorem Kept.lockHeard {P : State → Prop} (k : Kept P) {s : State} {a : Nat} (h : P s) :
    P (s.lockHeard a) := by
  unfold State.lockHeard
  repeat' (first | split | dsimp only)
  all_goals repeat' (first
    | assumption
    | with_reducible apply k.sendLock)

theorem Kept.lockDelivered {P : State → Prop} (k : Kept P) {s : State} {a : Nat} (h : P s) :
    P (s.lockDelivered a) := by
  unfold State.lockDelivered
  repeat' (first | split | dsimp only)
  all_goals repeat' (first
    | assumption
    | with_reducible apply k.setLock
    | with_reducible apply k.post
    | with_reducible apply k.sendLock)

theorem Kept.lockFailed {P : State → Prop} (k : Kept P) {s : State} {a : Nat} {r : LockFaultReason} (h : P s) :
    P (s.lockFailed a r) := by
  unfold State.lockFailed
  repeat' (first | split | dsimp only)
  all_goals repeat' (first
    | assumption
    | with_reducible apply k.setLock
    | with_reducible apply k.post)

theorem Kept.lockOutcome {P : State → Prop} (k : Kept P) {s : State} {a : Nat} {l : Bool} {o : TxOutcome} (h : P s) :
    P (s.lockOutcome a l o) := by
  unfold State.lockOutcome
  repeat' (first | split | dsimp only)
  all_goals repeat' (first
    | assumption
    | with_reducible apply k.lockDelivered
    | with_reducible apply k.lockFailed
    | with_reducible apply k.dropped
    | with_reducible apply k.lockDropped)

theorem Kept.failActuator {P : State → Prop} (k : Kept P) {s : State} {z : Nat} {r : Role} {b : ActState} {on : Bool} {w : ActReason} (h : P s) :
    P (s.failActuator z r b on w) := by
  unfold State.failActuator
  repeat' (first | split | dsimp only)
  all_goals repeat' (first
    | assumption
    | with_reducible apply k.setActuator
    | with_reducible apply k.orphanActSet
    | with_reducible apply k.post)

theorem Kept.queueOff {P : State → Prop} (k : Kept P) {s : State} {z : Nat} {r : Role} {b : ActState} (h : P s) :
    P (s.queueOff z r b) := by
  unfold State.queueOff
  repeat' (first | split | dsimp only)
  all_goals repeat' (first
    | assumption
    | with_reducible apply k.requestTx
    | with_reducible apply k.failActuator)

theorem Kept.startUnit {P : State → Prop} (k : Kept P) {s : State} {z : Nat} {r : Role} (h : P s) :
    P (s.startUnit z r) := by
  unfold State.startUnit
  repeat' (first | split | dsimp only)
  all_goals repeat' (first
    | assumption
    | with_reducible apply k.setActuator
    | with_reducible apply k.requestTx
    | with_reducible apply k.failActuator)

theorem Kept.stopUnit {P : State → Prop} (k : Kept P) {s : State} {z : Nat} {r : Role} (h : P s) :
    P (s.stopUnit z r) := by
  unfold State.stopUnit
  repeat' (first | split | dsimp only)
  all_goals repeat' (first
    | assumption
    | with_reducible apply k.setActuator
    | with_reducible apply k.requestTx
    | with_reducible apply k.failActuator)

theorem Kept.runElapsed {P : State → Prop} (k : Kept P) {s : State} {z : Nat} {r : Role} (h : P s) :
    P (s.runElapsed z r) := by
  unfold State.runElapsed
  repeat' (first | split | dsimp only)
  all_goals repeat' (first
    | assumption
    | with_reducible apply k.setActuator
    | with_reducible apply k.stopUnit)

theorem Kept.restOver {P : State → Prop} (k : Kept P) {s : State} {z : Nat} {r : Role} (h : P s) :
    P (s.restOver z r) := by
  unfold State.restOver
  repeat' (first | split | dsimp only)
  all_goals repeat' (first
    | assumption
    | with_reducible apply k.setActuator
    | with_reducible apply k.startUnit)

theorem Kept.enterRest {P : State → Prop} (k : Kept P) {s : State} {z : Nat} {r : Role} (h : P s) :
    P (s.enterRest z r) := by
  unfold State.enterRest
  repeat' (first | split | dsimp only)
  all_goals repeat' (first
    | assumption
    | with_reducible apply k.setActuator
    | with_reducible apply k.restOver)

theorem Kept.reportRecord {P : State → Prop} (k : Kept P) {s : State} {z : Nat} {r : Role} (h : P s) :
    P (s.reportRecord z r) := by
  unfold State.reportRecord
  repeat' (first | split | dsimp only)
  all_goals repeat' (first
    | assumption
    | with_reducible apply k.startUnit
    | with_reducible apply k.stopUnit
    | with_reducible apply k.setActuator
    | with_reducible apply k.queueOff)

theorem Kept.demandReport {P : State → Prop} (k : Kept P) {s : State} {z : Nat} (h : P s) :
    P (s.demandReport z) := by
  unfold State.demandReport
  repeat' (first | split | dsimp only)
  all_goals repeat' (first
    | assumption
    | with_reducible apply k.reportRecord)

theorem Kept.toShut {P : State → Prop} (k : Kept P) {s : State} {z : Nat} {r : Role} {a : Actuator} (h : P s) :
    P (s.toShut z r a) := by
  unfold State.toShut
  repeat' (first | split | dsimp only)
  all_goals repeat' (first
    | assumption
    | with_reducible apply k.setActuator
    | with_reducible apply k.orphanActSet)

theorem Kept.shutdownRecord {P : State → Prop} (k : Kept P) {s : State} {z : Nat} {r : Role} (h : P s) :
    P (s.shutdownRecord z r) := by
  unfold State.shutdownRecord
  repeat' (first | split | dsimp only)
  all_goals repeat' (first
    | assumption
    | with_reducible apply k.toShut
    | with_reducible apply k.queueOff
    | with_reducible apply k.failActuator)

theorem Kept.shutdownPlant {P : State → Prop} (k : Kept P) {s : State} {z : Nat} (h : P s) :
    P (s.shutdownPlant z) := by
  unfold State.shutdownPlant
  repeat' (first | split | dsimp only)
  all_goals repeat' (first
    | assumption
    | with_reducible apply k.shutdownRecord)

theorem Kept.returnRecord {P : State → Prop} (k : Kept P) {s : State} {z : Nat} {r : Role} (h : P s) :
    P (s.returnRecord z r) := by
  unfold State.returnRecord
  repeat' (first | split | dsimp only)
  all_goals repeat' (first
    | assumption
    | with_reducible apply k.enterRest)

theorem Kept.returnPlant {P : State → Prop} (k : Kept P) {s : State} {z : Nat} (h : P s) :
    P (s.returnPlant z) := by
  unfold State.returnPlant
  repeat' (first | split | dsimp only)
  all_goals repeat' (first
    | assumption
    | with_reducible apply k.returnRecord)

theorem Kept.actDelivered {P : State → Prop} (k : Kept P) {s : State} {z : Nat} {r : Role} {p : ActPurpose} (h : P s) :
    P (s.actDelivered z r p) := by
  unfold State.actDelivered
  repeat' (first | split | dsimp only)
  all_goals repeat' (first
    | assumption
    | with_reducible apply k.setActuator
    | with_reducible apply k.runElapsed
    | with_reducible apply k.enterRest
    | with_reducible apply k.queueOff)

theorem Kept.actFailed {P : State → Prop} (k : Kept P) {s : State} {z : Nat} {r : Role} {p : ActPurpose} {w : ActReason} (h : P s) :
    P (s.actFailed z r p w) := by
  unfold State.actFailed
  repeat' (first | split | dsimp only)
  all_goals repeat' (first
    | assumption
    | with_reducible apply k.failActuator)

theorem Kept.actOutcome {P : State → Prop} (k : Kept P) {s : State} {z : Nat} {r : Role} {p : ActPurpose} {l : Bool} {o : TxOutcome} (h : P s) :
    P (s.actOutcome z r p l o) := by
  unfold State.actOutcome
  repeat' (first | split | dsimp only)
  all_goals repeat' (first
    | assumption
    | with_reducible apply k.actDelivered
    | with_reducible apply k.actFailed
    | with_reducible apply k.dropped
    | with_reducible apply k.actDropped)

theorem Kept.recoverRecord {P : State → Prop} (k : Kept P) {s : State} {z : Nat} {r : Role} (h : P s) :
    P (s.recoverRecord z r) := by
  unfold State.recoverRecord
  repeat' (first | split | dsimp only)
  all_goals repeat' (first
    | assumption
    | with_reducible apply k.toShut
    | with_reducible apply k.queueOff
    | with_reducible apply k.setActuator
    | with_reducible apply k.post)

theorem Kept.plantHeard {P : State → Prop} (k : Kept P) {s : State} {a : Nat} (h : P s) :
    P (s.plantHeard a) := foldl_kept (fun _ _ => k.recoverRecord) _ h

theorem Kept.createActuator {P : State → Prop} (k : Kept P) {s : State} {z : Nat} {r : Role} {n : Nat} (h : P s) :
    P (s.createActuator z r n) := by
  unfold State.createActuator
  repeat' (first | split | dsimp only)
  all_goals repeat' (first
    | assumption
    | with_reducible apply k.setActuator
    | with_reducible apply k.queueOff)

theorem Kept.removeActuator {P : State → Prop} (k : Kept P) {s : State} {z : Nat} {r : Role} (h : P s) :
    P (s.removeActuator z r) := by
  unfold State.removeActuator
  split
  · exact h
  · refine k.killActSet (k.delActuator ?_)
    split
    · exact k.queueOff h
    · exact h

theorem Kept.reloadActuator {P : State → Prop} (k : Kept P) {s : State} {z : Nat} {r : Role} {n : Option Nat} (h : P s) :
    P (s.reloadActuator z r n) := by
  unfold State.reloadActuator
  repeat' (first | split | dsimp only)
  all_goals repeat' (first
    | assumption
    | with_reducible apply k.removeActuator
    | with_reducible apply k.createActuator)

theorem Kept.reloadPlant {P : State → Prop} (k : Kept P) {s : State} {z : Nat} {g : Option ClimateGroup} (h : P s) :
    P (s.reloadPlant z g) := by
  unfold State.reloadPlant
  repeat' (first | split | dsimp only)
  all_goals repeat' (first
    | assumption
    | with_reducible apply k.reloadActuator)

theorem Kept.changeHeld {P : State → Prop} (k : Kept P) {s : State} {i : Nat} {f : Nat → Nat} (h : P s) :
    P (s.changeHeld i f) := by
  unfold State.changeHeld
  repeat' (first | split | dsimp only)
  all_goals repeat' (first
    | assumption
    | exact k.party h)

theorem Kept.raiseHeld {P : State → Prop} (k : Kept P) {s : State} {i : Nat} (h : P s) :
    P (s.raiseHeld i) := by
  unfold State.raiseHeld
  repeat' (first | split | dsimp only)
  all_goals repeat' (first
    | assumption
    | with_reducible apply k.changeHeld)

theorem Kept.lowerHeld {P : State → Prop} (k : Kept P) {s : State} {i : Nat} (h : P s) :
    P (s.lowerHeld i) := by
  unfold State.lowerHeld
  repeat' (first | split | dsimp only)
  all_goals repeat' (first
    | assumption
    | with_reducible apply k.changeHeld)

theorem Kept.lowerHeldOf {P : State → Prop} (k : Kept P) {s : State} {i : Option Nat} (h : P s) :
    P (s.lowerHeldOf i) := by
  unfold State.lowerHeldOf
  repeat' (first | split | dsimp only)
  all_goals repeat' (first
    | assumption
    | with_reducible apply k.lowerHeld)

theorem Kept.releaseOrder {P : State → Prop} (k : Kept P) {s : State} {n : Nat} (h : P s) :
    P (s.releaseOrder n) := by
  unfold State.releaseOrder
  repeat' (first | split | dsimp only)
  all_goals repeat' (first
    | assumption
    | with_reducible apply k.setOrder
    | with_reducible apply k.requestTx)

theorem Kept.settlePick {P : State → Prop} (k : Kept P) {s : State} {n : Nat} (h : P s) :
    P (s.settlePick n) := by
  unfold State.settlePick
  repeat' (first | split | dsimp only)
  all_goals repeat' (first
    | assumption
    | with_reducible apply k.setOrder
    | with_reducible apply k.requestTx)

theorem Kept.moveOrder {P : State → Prop} (k : Kept P) {s : State} {n : Nat} {t : OrderState} (h : P s) :
    P (s.moveOrder n t) := by
  unfold State.moveOrder
  repeat' (first | split | dsimp only)
  all_goals repeat' (first
    | assumption
    | with_reducible apply k.setOrder
    | with_reducible apply k.settlePick)

theorem Kept.orderBackInSlot {P : State → Prop} (k : Kept P) {s : State} {n : Nat} (h : P s) :
    P (s.orderBackInSlot n) := by
  unfold State.orderBackInSlot
  repeat' (first | split | dsimp only)
  all_goals repeat' (first
    | assumption
    | with_reducible apply k.setOrder
    | with_reducible apply k.releaseOrder)

theorem Kept.closeOrder {P : State → Prop} (k : Kept P) {s : State} {n : Nat} {w : OrderReason} (h : P s) :
    P (s.closeOrder n w) := by
  unfold State.closeOrder
  repeat' (first | split | dsimp only)
  all_goals repeat' (first
    | assumption
    | with_reducible apply k.settlePick
    | with_reducible apply k.detachPick
    | with_reducible apply k.post
    | exact k.delOrder (k.detachPick (k.settlePick h)))

theorem Kept.closeOrderOf {P : State → Prop} (k : Kept P) {s : State} {n : Option Nat} {w : OrderReason} (h : P s) :
    P (s.closeOrderOf n w) := by
  unfold State.closeOrderOf
  repeat' (first | split | dsimp only)
  all_goals repeat' (first
    | assumption
    | with_reducible apply k.closeOrder)

theorem Kept.holdOrders {P : State → Prop} (k : Kept P) {s : State} {z : Nat} (h : P s) :
    P (s.holdOrders z) := foldl_kept (fun _ _ => k.moveOrder) _ h

theorem Kept.freeOrders {P : State → Prop} (k : Kept P) {s : State} {z : Nat} (h : P s) :
    P (s.freeOrders z) := foldl_kept (fun _ _ => k.releaseOrder) _ h

theorem Kept.ordersFire {P : State → Prop} (k : Kept P) {s : State} {z : Nat} {b a : FireState} (h : P s) :
    P (s.ordersFire z b a) := by
  unfold State.ordersFire
  repeat' (first | split | dsimp only)
  all_goals repeat' (first
    | assumption
    | with_reducible apply k.holdOrders
    | with_reducible apply k.freeOrders)

theorem Kept.ordersEpoch {P : State → Prop} (k : Kept P) {s : State} (h : P s) :
    P (s.ordersEpoch) := foldl_kept (fun _ _ => k.releaseOrder) _ h

theorem Kept.pickDelivered {P : State → Prop} (k : Kept P) {s : State} {n : Nat} {d : Bool} {a : Nat} (h : P s) :
    P (s.pickDelivered n d a) := by
  unfold State.pickDelivered
  repeat' (first | split | dsimp only)
  all_goals repeat' (first
    | assumption
    | with_reducible apply k.requestTx
    | with_reducible apply k.setOrder)

theorem Kept.pickFailed {P : State → Prop} (k : Kept P) {s : State} {n : Nat} {d : Bool} {a : Nat} {o : TxOutcome} (h : P s) :
    P (s.pickFailed n d a o) := by
  unfold State.pickFailed
  repeat' (first | split | dsimp only)
  all_goals repeat' (first
    | assumption
    | with_reducible apply k.setOrder
    | with_reducible apply k.post)

theorem Kept.pickOutcome {P : State → Prop} (k : Kept P) {s : State} {n : Nat} {d : Bool} {a : Nat} {o : TxOutcome} (h : P s) :
    P (s.pickOutcome n d a o) := by
  unfold State.pickOutcome
  repeat' (first | split | dsimp only)
  all_goals repeat' (first
    | assumption
    | with_reducible apply k.pickDelivered
    | with_reducible apply k.pickFailed
    | with_reducible apply k.dropped
    | with_reducible apply k.pickDropped)

theorem Kept.postCartridge {P : State → Prop} (k : Kept P) {s : State} {i : Nat} {b : CartState} {c : Cartridge} {q : Option Nat} {w : CartReason} (h : P s) :
    P (s.postCartridge i b c q w) := k.post h

theorem Engine.without_length (e : Engine) (i : Nat) : (e.without i).list.length ≤ e.list.length := by
  unfold Engine.without
  dsimp only
  split <;> exact List.length_filter_le _ _

theorem Kept.dropFromList {P : State → Prop} (k : Kept P) {s : State} {e : Option Hatch} {i : Nat} (h : P s) :
    P (s.dropFromList e i) := by
  unfold State.dropFromList
  repeat' (first | split | dsimp only)
  all_goals repeat' (first
    | assumption
    | with_reducible apply k.setEngine
    | exact .inr (Engine.without_length _ _))

theorem Kept.slotEmptied {P : State → Prop} (k : Kept P) {s : State} {z n : Nat} (h : P s) :
    P (s.slotEmptied z n) := by
  unfold State.slotEmptied
  repeat' (first | split | dsimp only)
  all_goals repeat' (first
    | assumption
    | with_reducible apply k.setCartridge
    | with_reducible apply k.postCartridge
    | with_reducible apply k.moveOrder)

theorem Kept.reshelve {P : State → Prop} (k : Kept P) {s : State} {i : Nat} {c : Cartridge} (h : P s) :
    P (s.reshelve i c) := by
  unfold State.reshelve
  repeat' (first | split | dsimp only)
  all_goals repeat' (first
    | assumption
    | with_reducible apply k.setCartridge
    | with_reducible apply k.postCartridge)

theorem Kept.reorder {P : State → Prop} (k : Kept P) {s : State} {i : Nat} {c : Cartridge} {n : Nat} (h : P s) :
    P (s.reorder i c n) := by
  unfold State.reorder
  repeat' (first | split | dsimp only)
  all_goals repeat' (first
    | assumption
    | with_reducible apply k.setCartridge
    | with_reducible apply k.postCartridge
    | with_reducible apply k.orderBackInSlot)

theorem Kept.shelveEarly {P : State → Prop} (k : Kept P) {s : State} {i : Nat} {c : Cartridge} (h : P s) :
    P (s.shelveEarly i c) := by
  unfold State.shelveEarly
  repeat' (first | split | dsimp only)
  all_goals repeat' (first
    | assumption
    | with_reducible apply k.setCartridge
    | with_reducible apply k.postCartridge)

theorem Kept.shelveIrregular {P : State → Prop} (k : Kept P) {s : State} {i : Nat} {c : Cartridge} (h : P s) :
    P (s.shelveIrregular i c) := by
  unfold State.shelveIrregular
  repeat' (first | split | dsimp only)
  all_goals repeat' (first
    | assumption
    | with_reducible apply k.dropFromList
    | with_reducible apply k.lowerHeldOf
    | with_reducible apply k.setCartridge
    | with_reducible apply k.postCartridge)

theorem Kept.backHome {P : State → Prop} (k : Kept P) {s : State} {i : Nat} {c : Cartridge} (h : P s) :
    P (s.backHome i c) := by
  unfold State.backHome
  repeat' (first | split | dsimp only)
  all_goals repeat' (first
    | assumption
    | with_reducible apply k.reorder
    | with_reducible apply k.reshelve
    | with_reducible apply k.shelveEarly
    | with_reducible apply k.dropFromList
    | with_reducible apply k.shelveIrregular)

theorem Kept.slotOccupied {P : State → Prop} (k : Kept P) {s : State} {p z n : Nat} {l : Label} (h : P s) :
    P (s.slotOccupied p z n l) := by
  unfold State.slotOccupied
  repeat' (first | split | dsimp only)
  all_goals repeat' (first
    | assumption
    | with_reducible apply k.post
    | with_reducible apply k.backHome)

theorem Kept.inspectStep {P : State → Prop} (k : Kept P) {s : State} {i : Nat} (h : P s) :
    P (s.inspectStep i) := by
  unfold State.inspectStep
  repeat' (first | split | dsimp only)
  all_goals repeat' (first
    | assumption
    | with_reducible apply k.setCartridge
    | with_reducible apply k.postCartridge
    | with_reducible apply k.closeOrderOf)

theorem Kept.acclimStep {P : State → Prop} (k : Kept P) {s : State} {e : Epoch} {i : Nat} (h : P s) :
    P (s.acclimStep e i) := by
  unfold State.acclimStep
  repeat' (first | split | dsimp only)
  all_goals repeat' (first
    | assumption
    | with_reducible apply k.setCartridge
    | with_reducible apply k.postCartridge)

theorem Kept.overdueStep {P : State → Prop} (k : Kept P) {s : State} {i : Nat} (h : P s) :
    P (s.overdueStep i) := by
  unfold State.overdueStep
  repeat' (first | split | dsimp only)
  all_goals repeat' (first
    | assumption
    | with_reducible apply k.setCartridge
    | with_reducible apply k.postCartridge)

theorem Kept.epochRecord {P : State → Prop} (k : Kept P) {s : State} {e : Epoch} {i : Nat} (h : P s) :
    P (State.epochRecord e s i) := by
  unfold State.epochRecord
  repeat' (first | split | dsimp only)
  all_goals repeat' (first
    | assumption
    | with_reducible apply k.setCartridge
    | with_reducible apply k.inspectStep
    | with_reducible apply k.acclimStep
    | with_reducible apply k.overdueStep)

theorem Kept.epochWork {P : State → Prop} (k : Kept P) {s : State} {e : Epoch} (h : P s) :
    P (s.epochWork e) := foldl_kept (fun _ _ => k.epochRecord) _ h

theorem Kept.quarantineRecord {P : State → Prop} (k : Kept P) {z i : Nat} {acc : State × Nat × Nat} (h : P acc.1) :
    P (State.quarantineRecord z acc i).1 := by
  unfold State.quarantineRecord
  repeat' (first | split | dsimp only)
  all_goals repeat' (first | assumption | with_reducible apply k.closeOrder | with_reducible apply k.setCartridge)

theorem Kept.quarantineZone {P : State → Prop} (k : Kept P) {s : State} {z : Nat} (h : P s) :
    P (s.quarantineZone z) := by
  have fold : ∀ (l : List Nat) (acc : State × Nat × Nat), P acc.1 → P (l.foldl (State.quarantineRecord z) acc).1 := by
    intro l
    induction l with
    | nil => exact fun _ h => h
    | cons i l ih => exact fun acc h => ih _ (k.quarantineRecord h)
  exact k.post (fold _ (s, 0, 0) h)

theorem Kept.postClimate {P : State → Prop} (k : Kept P) {s : State} {z : Nat} {b : Status} (h : P s) :
    P (s.postClimate z b) := by
  unfold State.postClimate
  repeat' (first | split | dsimp only)
  all_goals repeat' (first
    | assumption
    | with_reducible apply k.post)

theorem Kept.setDemand {P : State → Prop} (k : Kept P) {s : State} {z : Nat} {d : Demand} (h : P s) :
    P (s.setDemand z d) := k.setClimate h

theorem Kept.takeSample {P : State → Prop} (k : Kept P) {s : State} {z : Nat} {g : ClimateGroup} {a b : Int} (h : P s) :
    P (s.takeSample z g a b) := by
  unfold State.takeSample
  repeat' (first | split | dsimp only)
  all_goals repeat' (first
    | assumption
    | with_reducible apply k.setClimate
    | with_reducible apply k.postClimate
    | with_reducible apply k.setDemand
    | with_reducible apply k.demandReport)

theorem Kept.becomeStale {P : State → Prop} (k : Kept P) {s : State} {z : Nat} (h : P s) :
    P (s.becomeStale z) := by
  unfold State.becomeStale
  repeat' (first | split | dsimp only)
  all_goals repeat' (first
    | assumption
    | with_reducible apply k.setClimate
    | with_reducible apply k.postClimate
    | with_reducible apply k.demandReport)

theorem Kept.emptyClimate {P : State → Prop} (k : Kept P) {s : State} {z : Nat} (h : P s) :
    P (s.emptyClimate z) := by
  unfold State.emptyClimate
  repeat' (first | split | dsimp only)
  all_goals repeat' (first
    | assumption
    | with_reducible apply k.setClimate
    | with_reducible apply k.postClimate
    | with_reducible apply k.demandReport)

theorem Kept.answerResult {P : State → Prop} (k : Kept P) {s : State} {e : Hatch} {d : Nat} {c : ResultCode} (h : P s) :
    P (s.answerResult e d c) := k.requestTx h

theorem Kept.endResult {P : State → Prop} (k : Kept P) {s : State} {e : Hatch} {q : NodeClass} {c : ResultCode} (h : P s) :
    P (s.endResult e q c) := by
  unfold State.endResult
  repeat' (first | split | dsimp only)
  all_goals repeat' (first
    | assumption
    | with_reducible apply k.requestTx)

theorem Kept.endExchange {P : State → Prop} (k : Kept P) {s : State} {e : Hatch} {c : HandoverCause} {l : List (Nat × Label)} {d : Option Nat} {g : Option (Nat × Nat)} (h : P s) :
    P (s.endExchange e c l d g) := k.setEngine (k.endResult (k.endResult (k.post h))) (.inl (by simp [Engine.idle]))

theorem Kept.abortOne {P : State → Prop} (k : Kept P) {s : State} {i : Nat} (h : P s) :
    P (s.abortOne i) := by
  unfold State.abortOne
  repeat' (first | split | dsimp only)
  all_goals repeat' (first
    | assumption
    | with_reducible apply k.setCartridge
    | with_reducible apply k.moveOrder)

theorem Kept.abortExchange {P : State → Prop} (k : Kept P) {s : State} {e : Hatch} {c : HandoverCause} (h : P s) :
    P (s.abortExchange e c) := by
  unfold State.abortExchange
  repeat' (first | split | dsimp only)
  all_goals repeat' (first
    | assumption
    | with_reducible apply k.abortOne
    | with_reducible apply k.dropHandoverClaim
    | with_reducible apply k.endExchange
    | exact foldl_kept (fun _ _ => k.abortOne) _ h)

theorem Kept.handOut {P : State → Prop} (k : Kept P) {s : State} {q : Option Nat} {d i : Nat} (h : P s) :
    P (State.handOut q d s i) := by
  unfold State.handOut
  repeat' (first | split | dsimp only)
  all_goals repeat' (first
    | assumption
    | with_reducible apply k.setCartridge
    | with_reducible apply k.closeOrderOf
    | with_reducible apply k.raiseHeld)

theorem Kept.commitOut {P : State → Prop} (k : Kept P) {s : State} {e : Hatch} (h : P s) :
    P (s.commitOut e) := k.endExchange (k.dropHandoverClaim (foldl_kept (fun _ _ => k.handOut) _ h))

theorem Kept.takeIn {P : State → Prop} (k : Kept P) {s : State} {q : Option Nat} {a i : Nat} (h : P s) :
    P (State.takeIn q a s i) := by
  unfold State.takeIn
  repeat' (first | split | dsimp only)
  all_goals repeat' (first
    | assumption
    | with_reducible apply k.lowerHeldOf
    | with_reducible apply k.setCartridge)

theorem Kept.commitIn {P : State → Prop} (k : Kept P) {s : State} {e : Hatch} {c : HandoverCause} (h : P s) :
    P (s.commitIn e c) := k.endExchange (k.dropHandoverClaim (foldl_kept (fun _ _ => k.takeIn) _ h))

theorem Kept.engineFire {P : State → Prop} (k : Kept P) {s : State} {e : Hatch} (h : P s) :
    P (s.engineFire e) := by
  unfold State.engineFire
  repeat' (first | split | dsimp only)
  all_goals repeat' (first
    | assumption
    | with_reducible apply k.abortExchange
    | with_reducible apply k.commitIn)

theorem Kept.enterIntake {P : State → Prop} (k : Kept P) {s : State} {e : Hatch} (h : P s) :
    P (s.enterIntake e) := by
  unfold State.enterIntake
  repeat' (first | split | dsimp only)
  all_goals repeat' (first
    | assumption
    | with_reducible apply k.dropHandoverClaim
    | with_reducible apply k.setEngine
    | with_reducible apply k.commitIn
    | exact .inr (Nat.le_refl _))

theorem Kept.engineDoor {P : State → Prop} (k : Kept P) {s : State} {e : Hatch} {d : DoorState} (h : P s) :
    P (s.engineDoor e d) := by
  unfold State.engineDoor
  repeat' (first | split | dsimp only)
  all_goals repeat' (first
    | assumption
    | with_reducible apply k.setEngine
    | with_reducible apply k.enterIntake
    | with_reducible apply k.commitOut
    | exact .inr (Nat.le_refl _))

theorem Kept.enterRelease {P : State → Prop} (k : Kept P) {s : State} {e : Hatch} {a : Nat} (h : P s) :
    P (s.enterRelease e a) := by
  unfold State.enterRelease
  repeat' (first | split | dsimp only)
  all_goals repeat' (first
    | assumption
    | with_reducible apply k.abortExchange
    | with_reducible apply k.setClaims
    | with_reducible apply k.setEngine
    | with_reducible apply k.answerResult
    | exact .inr (Nat.le_refl _))

theorem Kept.queueRelease {P : State → Prop} (k : Kept P) {s : State} {z : Nat} (h : P s) :
    P (s.queueRelease z) := by
  unfold State.queueRelease
  repeat' (first | split | dsimp only)
  all_goals repeat' (first
    | assumption
    | with_reducible apply k.killRelease
    | with_reducible apply k.requestTx
    | exact k.flags (k.killRelease h) (fun _ => rfl))

theorem Kept.postReleaseFault {P : State → Prop} (k : Kept P) {s : State} {z : Nat} {f : Bool} (h : P s) :
    P (s.postReleaseFault z f) := k.post h

theorem KeptSent.releaseOutcome {P : State → Prop} (k : KeptSent P) {s : State} {z : Nat} {l : Bool} {n : Nat} {o : TxOutcome} (h : P s) :
    P (s.releaseOutcome z l n o) := by
  unfold State.releaseOutcome
  repeat' (first | split | dsimp only)
  all_goals repeat' (first
    | assumption
    | with_reducible apply k.post
    | with_reducible apply k.dropped
    | exact k.cleared h
    | exact k.flags h id)

theorem Kept.postFireState {P : State → Prop} (k : Kept P) {s : State} {z : Nat} {b : FireState} {c : FireCause} {a : Option Nat} (h : P s) :
    P (s.postFireState z b c a) := k.post h

theorem Kept.tellHatchEngine {P : State → Prop} (k : Kept P) {s : State} {z : Nat} (h : P s) :
    P (s.tellHatchEngine z) := by
  unfold State.tellHatchEngine
  repeat' (first | split | dsimp only)
  all_goals repeat' (first
    | assumption
    | with_reducible apply k.engineFire)

theorem Kept.tellCommander {P : State → Prop} (k : Kept P) {s : State} {a : Nat} {c : NodeClass} {b : Byte} (h : P s) :
    P (s.tellCommander a c b) := by
  unfold State.tellCommander
  repeat' (first | split | dsimp only)
  all_goals repeat' (first
    | assumption
    | with_reducible apply k.lockHeard
    | with_reducible apply k.plantHeard)

theorem KeptSent.handOutcome {P : State → Prop} (k : KeptSent P) {s : State} {o : Origin} {d : Nat} {r : TxOutcome} (h : P s) :
    P (s.handOutcome o d r) := by
  cases o with
  | release z live => exact k.releaseOutcome h
  | alert => exact h
  | lockSet a live => exact k.lockOutcome h
  | actSet z q p live => exact k.actOutcome h
  | pick n d => exact k.pickOutcome h
  | pickWithdraw => exact h
  | result e => exact h
  | passDown => exact k.passDownOutcome h

theorem KeptOut.evalFault {P : State → Prop} (k : KeptOut P) {s : State} (h : P s) :
    P (s.evalFault) := k.fault h

theorem KeptOut.driveRelease {P : State → Prop} (k : KeptOut P) {s : State} {z : Nat} {b : Bool} (h : P s) :
    P (s.driveRelease z b) := by
  unfold State.driveRelease
  repeat' (first | split | dsimp only)
  all_goals repeat' (first
    | assumption
    | with_reducible apply k.release
    | exact k.release h)

theorem KeptOut.evalFireActive {P : State → Prop} (k : KeptOut P) {s : State} (h : P s) :
    P (s.evalFireActive) := by
  unfold State.evalFireActive
  repeat' (first | split | dsimp only)
  all_goals repeat' (first
    | assumption
    | with_reducible apply k.requestTx
    | with_reducible apply k.settleFireHolds
    | with_reducible apply k.engineFire
    | exact k.setActive h)

/-- After the release output is driven, the steps of a change touch neither the outputs nor the fire states. -/
theorem Kept.handOnAfterDrive {P : State → Prop} (k : Kept P)
    (act : ∀ {s : State} {b : Bool}, P s → P { s with fz := { s.fz with fireActive := b } }) {s : State} {z : Nat}
    {b : FireState}
    (h2 : P (if (s.fire z).state = .released then s.driveRelease z true
      else if b = .released then s.driveRelease z false else s)) : P (s.handOn z b) := by
  unfold State.handOn
  dsimp only
  have eval : ∀ {s : State}, P s → P s.evalFireActive := by
    intro s h
    unfold State.evalFireActive
    repeat' (first | split | dsimp only)
    all_goals repeat' (first
      | assumption
      | with_reducible apply k.requestTx
      | with_reducible apply k.settleFireHolds
      | with_reducible apply k.engineFire
      | exact act h)
  apply eval
  apply k.tellHatchEngine
  apply k.ordersFire
  generalize (if (s.fire z).state = .released then s.driveRelease z true
      else if b = .released then s.driveRelease z false else s) = s2 at h2 ⊢
  have h3 : P (if (s.fire z).state = .released then s2.queueRelease z else s2) := by
    split
    · exact k.queueRelease h2
    · exact h2
  generalize (if (s.fire z).state = .released then s2.queueRelease z else s2) = s3 at h3 ⊢
  have h4 : P (if ((s.fire z).state.isShutdown && (decide (b = .normal) || decide (b = .preAlarm))) = true then
      s3.shutdownPlant z else if (decide ((s.fire z).state = .normal) && b.isShutdown) = true then s3.returnPlant z
      else s3) := by
    split
    · exact k.shutdownPlant h3
    · split
      · exact k.returnPlant h3
      · exact h3
  generalize (if ((s.fire z).state.isShutdown && (decide (b = .normal) || decide (b = .preAlarm))) = true then
      s3.shutdownPlant z else if (decide ((s.fire z).state = .normal) && b.isShutdown) = true then s3.returnPlant z
      else s3) = s4 at h4 ⊢
  split
  · exact k.quarantineZone (k.settleFireHolds h4)
  · exact k.settleFireHolds h4

theorem KeptOut.handOn {P : State → Prop} (k : KeptOut P) {s : State} {z : Nat} {b : FireState} (h : P s) :
    P (s.handOn z b) := by
  refine k.toKept.handOnAfterDrive k.setActive ?_
  split
  · exact k.driveRelease h
  · split
    · exact k.driveRelease h
    · exact h

theorem KeptFire.changeFire {P : State → Prop} (k : KeptFire P) {s : State} {z : Nat} {c : FireCause} {a : Option Nat} {f : Fire → Fire} (h : P s)
    (hk : setWf (s.fire z).knock = true → setWf (f (s.fire z)).knock = true)
    (ha : setWf (s.fire z).alarm = true → setWf (f (s.fire z)).alarm = true) :
    P (s.changeFire z c a f) := k.handOn (k.postFireState (k.setFire h hk ha))

theorem KeptFire.loadCountdown {P : State → Prop} (k : KeptFire P) {s : State} {z : Nat} {c : FireCause} (h : P s) :
    P (s.loadCountdown z c) := by
  unfold State.loadCountdown
  repeat' (first | split | dsimp only)
  all_goals repeat' (first
    | assumption
    | with_reducible apply k.conditions
    | with_reducible apply k.changeFire
    | exact fun x => x
    | exact fun _ => rfl)

theorem KeptFire.dischargeCheck {P : State → Prop} (k : KeptFire P) {s : State} {z : Nat} (h : P s) :
    P (s.dischargeCheck z) := by
  unfold State.dischargeCheck
  split
  · exact h
  · split
    · exact k.loadCountdown h
    · exact k.evalFault (k.postReleaseFault (k.setFire h (fun x => x) (fun x => x)))

theorem KeptFire.confirmFire {P : State → Prop} (k : KeptFire P) {s : State} {z : Nat} {c : FireCause} {a : Option Nat} (h : P s) :
    P (s.confirmFire z c a) := by
  unfold State.confirmFire
  repeat' (first | split | dsimp only)
  all_goals repeat' (first
    | assumption
    | with_reducible apply k.changeFire
    | with_reducible apply k.dischargeCheck
    | exact fun x => x
    | exact fun _ => rfl)

theorem KeptFire.firstAlarm {P : State → Prop} (k : KeptFire P) {s : State} {z d : Nat} (h : P s) :
    P (s.firstAlarm z d) := by
  unfold State.firstAlarm
  repeat' (first | split | dsimp only)
  all_goals repeat' (first
    | assumption
    | with_reducible apply k.changeFire
    | with_reducible apply k.confirmFire
    | exact fun x => x
    | exact fun _ => rfl)

theorem KeptFire.panelActive {P : State → Prop} (k : KeptFire P) {s : State} {z : Nat} (h : P s) :
    P (s.panelActive z) := by
  unfold State.panelActive
  repeat' (first | split | dsimp only)
  all_goals repeat' (first
    | assumption
    | with_reducible apply k.confirmFire)

theorem KeptFire.manualActive {P : State → Prop} (k : KeptFire P) {s : State} {z : Nat} (h : P s) :
    P (s.manualActive z) := by
  unfold State.manualActive
  repeat' (first | split | dsimp only)
  all_goals repeat' (first
    | assumption
    | with_reducible apply k.confirmFire)

theorem KeptFire.abortActive {P : State → Prop} (k : KeptFire P) {s : State} {z : Nat} (h : P s) :
    P (s.abortActive z) := by
  unfold State.abortActive
  repeat' (first | split | dsimp only)
  all_goals repeat' (first
    | assumption
    | with_reducible apply k.changeFire
    | exact fun x => x
    | exact fun _ => rfl)

theorem KeptFire.abortReleased {P : State → Prop} (k : KeptFire P) {s : State} {z : Nat} (h : P s) :
    P (s.abortReleased z) := by
  unfold State.abortReleased
  repeat' (first | split | dsimp only)
  all_goals repeat' (first
    | assumption
    | with_reducible apply k.loadCountdown
    | with_reducible apply k.changeFire
    | exact fun x => x
    | exact fun _ => rfl)

theorem KeptFire.dischargeActive {P : State → Prop} (k : KeptFire P) {s : State} {z : Nat} (h : P s) :
    P (s.dischargeActive z) := by
  unfold State.dischargeActive
  repeat' (first | split | dsimp only)
  all_goals repeat' (first
    | assumption
    | with_reducible apply k.setFire
    | with_reducible apply k.postReleaseFault
    | with_reducible apply k.evalFault
    | with_reducible apply k.loadCountdown
    | exact fun x => x)

theorem setInsert_mem {l : List Nat} {a x : Nat} : x ∈ setInsert l a ↔ x = a ∨ x ∈ l := by
  induction l with
  | nil => simp [setInsert]
  | cons y l ih =>
    simp only [setInsert]
    split
    · simp
    · split
      · subst_vars; simp
      · simp only [List.mem_cons, ih]
        constructor <;> (rintro (h | h | h) <;> simp [h])

theorem setInsert_wf {l : List Nat} {a : Nat} (h : setWf l = true) : setWf (setInsert l a) = true := by
  induction l with
  | nil => simp [setInsert, setWf]
  | cons y l ih =>
    simp only [setWf, Bool.and_eq_true, List.all_eq_true, decide_eq_true_eq] at h
    simp only [setInsert]
    split
    · simp only [setWf, Bool.and_eq_true, List.all_eq_true, decide_eq_true_eq, List.mem_cons]
      refine ⟨?_, h.1, h.2⟩
      rintro x (rfl | hx)
      · assumption
      · have := h.1 x hx; omega
    · split
      · simp only [setWf, Bool.and_eq_true, List.all_eq_true, decide_eq_true_eq]; exact h
      · simp only [setWf, Bool.and_eq_true, List.all_eq_true, decide_eq_true_eq]
        refine ⟨?_, ih h.2⟩
        intro x hx
        rcases setInsert_mem.1 hx with rfl | hx
        · omega
        · exact h.1 x hx

theorem filter_setWf {l : List Nat} (p : Nat → Bool) (h : setWf l = true) : setWf (l.filter p) = true := by
  induction l with
  | nil => rfl
  | cons y l ih =>
    simp only [setWf, Bool.and_eq_true, List.all_eq_true, decide_eq_true_eq] at h
    simp only [List.filter]
    split
    · simp only [setWf, Bool.and_eq_true, List.all_eq_true, decide_eq_true_eq]
      exact ⟨fun x hx => h.1 x (List.mem_filter.1 hx).1, ih h.2⟩
    · exact ih h.2

theorem setErase_wf {l : List Nat} {a : Nat} (h : setWf l = true) : setWf (setErase l a) = true := filter_setWf _ h

theorem KeptFire.alarm {P : State → Prop} (k : KeptFire P) {s : State} {z d : Nat} (h : P s) :
    P (s.alarm z d) := by
  unfold State.alarm
  dsimp only
  split
  · exact h
  · have h1 : P (s.setFire z { s.fire z with
        alarm := setInsert (s.fire z).alarm d
        knock := (if (s.fire z).state = .isolated then (s.fire z).knock else setInsert (s.fire z).knock d) }) := by
      refine k.setFire h (fun hk => ?_) (fun ha => setInsert_wf ha)
      dsimp only
      split
      · exact hk
      · exact setInsert_wf hk
    split
    · exact k.firstAlarm h1
    · split
      · exact h1
      · exact k.confirmFire h1
    all_goals exact h1

theorem KeptFire.restoreDetector {P : State → Prop} (k : KeptFire P) {s : State} {z d : Nat} (h : P s) :
    P (s.restoreDetector z d) := by
  unfold State.restoreDetector
  repeat' (first | split | dsimp only)
  all_goals repeat' (first
    | assumption
    | with_reducible apply k.setFire
    | with_reducible apply k.alarm
    | exact setErase_wf
    | exact fun x => x)

theorem KeptFire.healthyCount {P : State → Prop} (k : KeptFire P) {s : State} {z n : Nat} (h : P s) :
    P (s.healthyCount z n) := by
  unfold State.healthyCount
  repeat' (first | split | dsimp only)
  all_goals repeat' (first
    | assumption
    | with_reducible apply k.confirmFire)

theorem KeptFire.dropDetector {P : State → Prop} (k : KeptFire P) {s : State} {z d : Nat} (h : P s) :
    P (s.dropDetector z d) := k.setFire h setErase_wf setErase_wf

theorem KeptFire.resetFire {P : State → Prop} (k : KeptFire P) {s : State} {z : Nat} (h : P s) :
    P (s.resetFire z) := by
  unfold State.resetFire
  dsimp only
  apply k.handOn
  split
  · exact k.evalFault (k.postReleaseFault (k.postFireState (k.killRelease (k.setFire h (fun _ => rfl) (fun x => x)))))
  · exact k.postFireState (k.killRelease (k.setFire h (fun _ => rfl) (fun x => x)))

theorem KeptFire.isolateZone {P : State → Prop} (k : KeptFire P) {s : State} {z : Nat} (h : P s) :
    P (s.isolateZone z) := by
  unfold State.isolateZone
  repeat' (first | split | dsimp only)
  all_goals repeat' (first
    | assumption
    | with_reducible apply k.changeFire
    | exact fun x => x
    | exact fun _ => rfl)

theorem KeptFire.replayAlarm {P : State → Prop} (k : KeptFire P) {s : State} {z : Nat} (h : P s) :
    P (s.replayAlarm z) := by
  unfold State.replayAlarm
  repeat' (first | split | dsimp only)
  all_goals repeat' (first
    | assumption
    | with_reducible apply k.alarm)

theorem KeptFire.restoreZone {P : State → Prop} (k : KeptFire P) {s : State} {z : Nat} (h : P s) :
    P (s.restoreZone z) := by
  unfold State.restoreZone
  dsimp only
  have h2 := k.replayAlarm (z := z) (k.changeFire (z := z) (c := .restore) (a := none)
    (f := fun f => { f with state := .normal, knock := [] }) h (fun _ => rfl) (fun x => x))
  generalize (State.replayAlarm _ z) = s2 at h2 ⊢
  have h3 : P (if (s2.conditions z).panel = true then s2.panelActive z else s2) := by
    split
    · exact k.panelActive h2
    · exact h2
  generalize (if (s2.conditions z).panel = true then s2.panelActive z else s2) = s3 at h3 ⊢
  split
  · exact k.manualActive h3
  · exact h3

theorem KeptFire.removeFireZone {P : State → Prop} (k : KeptFire P) {s : State} {z : Nat} (h : P s) :
    P (s.removeFireZone z) := by
  unfold State.removeFireZone
  dsimp only
  have h1 : P (s.setFire z { s.fire z with knock := [], alarm := [] }) := k.setFire h (fun _ => rfl) (fun _ => rfl)
  split
  · exact k.changeFire h1 (fun x => x) (fun x => x)
  · exact h1

theorem KeptFire.recountDown {P : State → Prop} (k : KeptFire P) {s : State} (h : P s) :
    P (s.recountDown) := k.evalFault (k.faultSilent h)

theorem KeptFire.recountHealthy {P : State → Prop} (k : KeptFire P) {s : State} {z : Nat} (h : P s) :
    P (s.recountHealthy z) := by
  unfold State.recountHealthy
  repeat' (first | split | dsimp only)
  all_goals repeat' (first
    | assumption
    | with_reducible apply k.healthyCount
    | with_reducible apply k.evalFault
    | exact k.healthy h)

theorem KeptFire.changeSupervision {P : State → Prop} (k : KeptFire P) {s : State} {a : Nat} {e : NodeEntry} {w : NodeReason} (h : P s) :
    P (s.changeSupervision a e w) := by
  unfold State.changeSupervision
  repeat' (first | split | dsimp only)
  all_goals repeat' (first
    | assumption
    | with_reducible apply k.setNode
    | with_reducible apply k.post
    | with_reducible apply k.recountDown
    | with_reducible apply k.recountHealthy)

theorem KeptFire.heardFrom {P : State → Prop} (k : KeptFire P) {s : State} {a : Nat} {e : NodeEntry} {b : Byte} (h : P s) :
    P (s.heardFrom a e b) := by
  unfold State.heardFrom
  repeat' (first | split | dsimp only)
  all_goals repeat' (first
    | assumption
    | with_reducible apply k.setNode
    | with_reducible apply k.changeSupervision
    | with_reducible apply k.tellCommander)

theorem KeptFire.nodeAccepted {P : State → Prop} (k : KeptFire P) {s : State} {a : Nat} {b : Byte} (h : P s) :
    P (s.nodeAccepted a b) := by
  unfold State.nodeAccepted
  repeat' (first | split | dsimp only)
  all_goals repeat' (first
    | assumption
    | with_reducible apply k.setNode
    | with_reducible apply k.heardFrom)

theorem KeptFire.nodeNoAnswer {P : State → Prop} (k : KeptFire P) {s : State} {a : Nat} (h : P s) :
    P (s.nodeNoAnswer a) := by
  unfold State.nodeNoAnswer
  repeat' (first | split | dsimp only)
  all_goals repeat' (first
    | assumption
    | with_reducible apply k.changeSupervision)

theorem KeptFire.lineError {P : State → Prop} (k : KeptFire P) {s : State} {a : Nat} (h : P s) :
    P (s.lineError a) := by
  unfold State.lineError
  repeat' (first | split | dsimp only)
  all_goals repeat' (first
    | assumption
    | with_reducible apply k.setNode)

theorem KeptFire.conditionEdges {P : State → Prop} (k : KeptFire P) {s : State} {z : Nat} {b a : Conditions} (h : P s) :
    P (s.conditionEdges z b a) := by
  unfold State.conditionEdges
  dsimp only
  split
  · exact h
  · have h1 : P (if b.abort = a.abort then s else if a.abort = true then s.abortActive z else s.abortReleased z) := by
      split
      · exact h
      · split
        · exact k.abortActive h
        · exact k.abortReleased h
    generalize (if b.abort = a.abort then s else if a.abort = true then s.abortActive z else s.abortReleased z) = s1
      at h1 ⊢
    have h2 : P (if (!b.manual && a.manual) = true then s1.manualActive z else s1) := by
      split
      · exact k.manualActive h1
      · exact h1
    generalize (if (!b.manual && a.manual) = true then s1.manualActive z else s1) = s2 at h2 ⊢
    have h3 : P (if (!b.panel && a.panel) = true then s2.panelActive z else s2) := by
      split
      · exact k.panelActive h2
      · exact h2
    generalize (if (!b.panel && a.panel) = true then s2.panelActive z else s2) = s3 at h3 ⊢
    split
    · exact k.dischargeActive h3
    · exact h3

theorem KeptFire.settledEdge {P : State → Prop} (k : KeptFire P) {s : State} {z : Nat} (h : P s) :
    P (s.settledEdge z) := k.conditionEdges (k.conditions h)

theorem Kept.offerFire {P : State → Prop} (k : Kept P) {s : State} (h : P s) (n : s.lif.txq.length < 24) :
    P s.offerFire.1 := by
  unfold State.offerFire
  split
  · exact k.place (k.alert h) n
  · split
    · dsimp only
      split
      · exact k.place (k.flags h id) n
      · exact k.flags h id
    · exact h

theorem Kept.offerLock {P : State → Prop} (k : Kept P) {s : State} (h : P s) (n : s.lif.txq.length < 24) :
    P s.offerLock := by
  unfold State.offerLock
  split
  · exact h
  · split
    · exact h
    · exact k.place (k.setLock h) n

theorem State.offerFire_false {s : State} (h : s.offerFire.2 = false) : s.offerFire.1.lif = s.lif := by
  unfold State.offerFire at h ⊢
  split at h
  · exact absurd h (by simp)
  · rw [if_neg ‹_›]
    split at h
    · dsimp only at h ⊢
      split at h
      · exact absurd h (by simp)
      · rfl
    · rfl

theorem Kept.offerPlace {P : State → Prop} (k : Kept P) {s : State} (h : P s) (n : s.lif.txq.length < 24) :
    P s.offerPlace := by
  unfold State.offerPlace
  dsimp only
  split
  · exact k.offerFire h n
  · rename_i hb
    exact k.offerLock (k.offerFire h n) (by rw [State.offerFire_false (by simpa using hb)]; exact n)

end Sys2Proof.Machine
end

