-- ==== Sys2Proof/Laws/Tables.lean ====
section
/-! SUPPORT. The laws of tables: a read after a write, and the one canonical form that every update keeps. -/

namespace Sys2Proof.Machine

theorem Table.wf_cons {α : Type} {k : Nat} {x : α} {t : Table α} :
    Table.wf ((k, x) :: t) = true ↔ (∀ p ∈ t, k < p.1) ∧ Table.wf t = true := by
  simp [Table.wf, List.all_eq_true]

/-- Read after write at the same place. -/
@[simp] theorem Table.get_put_same {α : Type} (t : Table α) (k : Nat) (a : α) : Table.get (Table.put t k a) k = some a := by
  induction t with
  | nil => simp [Table.put, Table.get]
  | cons p t ih =>
    obtain ⟨i, x⟩ := p
    simp only [Table.put]
    split
    · simp [Table.get]
    · split
      · simp [Table.get]
      · rename_i h
        simp only [Table.get]
        rw [if_neg (fun e => h e.symm)]
        exact ih

/-- A write leaves every other place alone. -/
theorem Table.get_put_other {α : Type} (t : Table α) {k j : Nat} (a : α) (n : j ≠ k) :
    Table.get (Table.put t k a) j = Table.get t j := by
  induction t with
  | nil => simp [Table.put, Table.get, Ne.symm n]
  | cons p t ih =>
    obtain ⟨i, x⟩ := p
    simp only [Table.put]
    split
    · simp [Table.get, Ne.symm n]
    · split
      · subst_vars
        simp [Table.get, Ne.symm n]
      · simp only [Table.get, ih]

/-- A removed place reads as absent. -/
@[simp] theorem Table.get_del_same {α : Type} (t : Table α) (k : Nat) : Table.get (Table.del t k) k = none := by
  induction t with
  | nil => rfl
  | cons p t ih =>
    obtain ⟨i, x⟩ := p
    simp only [Table.del]
    split
    · exact ih
    · rename_i h
      simp only [Table.get, if_neg h, ih]

theorem Table.get_del_other {α : Type} (t : Table α) {k j : Nat} (n : j ≠ k) :
    Table.get (Table.del t k) j = Table.get t j := by
  induction t with
  | nil => rfl
  | cons p t ih =>
    obtain ⟨i, x⟩ := p
    simp only [Table.del]
    split
    · subst_vars
      simp only [Table.get, ih, if_neg (Ne.symm n)]
    · simp only [Table.get, ih]

theorem Table.mem_put {α : Type} {t : Table α} {k : Nat} {a : α} {p : Nat × α} (h : p ∈ Table.put t k a) :
    p = (k, a) ∨ p ∈ t := by
  induction t with
  | nil => simpa [Table.put] using h
  | cons q t ih =>
    obtain ⟨i, x⟩ := q
    simp only [Table.put] at h
    split at h
    · simpa using h
    · split at h
      · simp only [List.mem_cons] at h ⊢
        exact h.imp id .inr
      · simp only [List.mem_cons] at h ⊢
        rcases h with h | h
        · exact .inr (.inl h)
        · exact (ih h).imp id .inr

/-- Placing an entry keeps the canonical form. -/
theorem Table.wf_put {α : Type} {t : Table α} (k : Nat) (a : α) (h : Table.wf t = true) :
    Table.wf (Table.put t k a) = true := by
  induction t with
  | nil => simp [Table.put, Table.wf]
  | cons q t ih =>
    obtain ⟨i, x⟩ := q
    rw [Table.wf_cons] at h
    simp only [Table.put]
    split
    · rw [Table.wf_cons, Table.wf_cons]
      refine ⟨?_, h⟩
      intro p hp
      rcases List.mem_cons.1 hp with rfl | hp
      · assumption
      · have := h.1 p hp
        omega
    · split
      · subst_vars
        rw [Table.wf_cons]
        exact h
      · rw [Table.wf_cons]
        refine ⟨?_, ih h.2⟩
        intro p hp
        rcases Table.mem_put hp with rfl | hp
        · dsimp only
          omega
        · exact h.1 p hp

theorem Table.mem_del {α : Type} {t : Table α} {k : Nat} {p : Nat × α} (h : p ∈ Table.del t k) : p ∈ t := by
  induction t with
  | nil => simp [Table.del] at h
  | cons q t ih =>
    obtain ⟨i, x⟩ := q
    simp only [Table.del] at h
    split at h
    · exact List.mem_cons_of_mem _ (ih h)
    · rcases List.mem_cons.1 h with rfl | h
      · exact List.mem_cons_self
      · exact List.mem_cons_of_mem _ (ih h)

/-- Removing an entry keeps the canonical form. -/
theorem Table.wf_del {α : Type} {t : Table α} (k : Nat) (h : Table.wf t = true) : Table.wf (Table.del t k) = true := by
  induction t with
  | nil => rfl
  | cons q t ih =>
    obtain ⟨i, x⟩ := q
    rw [Table.wf_cons] at h
    simp only [Table.del]
    split
    · exact ih h.2
    · rw [Table.wf_cons]
      exact ⟨fun p hp => h.1 p (Table.mem_del hp), ih h.2⟩

theorem Table.wf_set {α : Type} {t : Table α} (k : Nat) (a : Option α) (h : Table.wf t = true) :
    Table.wf (Table.set t k a) = true := by
  cases a with
  | none => exact Table.wf_del k h
  | some a => exact Table.wf_put k a h

/-- Changing every entry in its place keeps the canonical form. -/
theorem tableMap_wf {α : Type} {t : Table α} (f : α → α) (h : Table.wf t = true) : Table.wf (tableMap f t) = true := by
  induction t with
  | nil => rfl
  | cons q t ih =>
    obtain ⟨i, x⟩ := q
    rw [Table.wf_cons] at h
    show Table.wf ((i, f x) :: tableMap f t) = true
    rw [Table.wf_cons]
    refine ⟨?_, ih h.2⟩
    intro p hp
    obtain ⟨q, hq, rfl⟩ := List.mem_map.1 hp
    exact h.1 q hq

@[simp] theorem tableMap_get {α : Type} (t : Table α) (f : α → α) (k : Nat) :
    Table.get (tableMap f t) k = (Table.get t k).map f := by
  induction t with
  | nil => rfl
  | cons q t ih =>
    obtain ⟨i, x⟩ := q
    show Table.get ((i, f x) :: tableMap f t) k = _
    simp only [Table.get, ih]
    split <;> rfl

/-- An entry that is read stands in the table. -/
theorem Table.get_mem {α : Type} {t : Table α} {k : Nat} {a : α} (h : Table.get t k = some a) : (k, a) ∈ t := by
  induction t with
  | nil => simp [Table.get] at h
  | cons q t ih =>
    obtain ⟨i, x⟩ := q
    simp only [Table.get] at h
    split at h
    · cases h
      subst_vars
      exact List.mem_cons_self
    · exact List.mem_cons_of_mem _ (ih h)

/-- In a canonical table every entry listed is the one read at its place. -/
theorem Table.get_of_mem {α : Type} {t : Table α} {k : Nat} {a : α} (w : Table.wf t = true) (h : (k, a) ∈ t) :
    Table.get t k = some a := by
  induction t with
  | nil => cases h
  | cons q t ih =>
    obtain ⟨i, x⟩ := q
    rw [Table.wf_cons] at w
    rcases List.mem_cons.1 h with e | h
    · cases e
      simp [Table.get]
    · have := w.1 _ h
      dsimp only at this
      simp only [Table.get]
      rw [if_neg (by omega)]
      exact ih w.2 h

/-- Placing at `k` what the table holds there changes nothing. -/
theorem Table.put_get {α : Type} {t : Table α} {k : Nat} {a : α} (w : Table.wf t = true) (g : Table.get t k = some a) :
    Table.put t k a = t := by
  induction t with
  | nil => cases g
  | cons p t ih =>
    obtain ⟨i, x⟩ := p
    rw [Table.wf_cons] at w
    simp only [Table.get] at g
    unfold Table.put
    split at g
    · next e => subst e; simp_all
    · next ne =>
      have lt := w.1 _ (Table.get_mem g)
      dsimp only at lt
      rw [if_neg (by omega), if_neg (by omega), ih w.2 g]

end Sys2Proof.Machine
end

