-- ==== Sys2Proof/Laws/Sound.lean ====
section
/-! SUPPORT. The form and the capacities of a state as propositions, and that every shared operation keeps them; the
reply list and the directive in hand; the fire states. -/

namespace Sys2Proof.Machine

/-- The directive under decision stands in hand with what was read as TI took it (R187, R189). -/
theorem State.underDecision_iff (s : State) (d : Directive) (v : Bool) :
    s.underDecision = some (d, v) ↔ ∃ read, s.ti.inHand = some (.deciding d read) ∧ read.verified = v := by
  unfold State.underDecision
  split <;> simp_all

/-- While a directive is under decision, what was read at its taking is what stands in hand (R39, R190). -/
theorem State.atTaking_deciding (s : State) (d : Directive) (read : Taking) (h : s.ti.inHand = some (.deciding d read)) :
    s.csAtTaking = read.cs ∧ s.filterAtTaking = read.filter := by
  unfold State.csAtTaking State.filterAtTaking State.readAtTaking
  rw [h]
  exact ⟨rfl, rfl⟩

/-- An expiry is taken exactly where its timer runs and nothing of its time remains (R29, log 2). -/
theorem timerDue_iff (t : Timer) : timerDue t = true ↔ t = some 0 := by simp [timerDue]

/-- A run timer's expiry is taken exactly where it runs and nothing of its time remains (R80, log 2). -/
theorem RunTimer.due_iff (r : RunTimer) : r.due = true ↔ r = .running 0 := by simp [RunTimer.due]

/-- `State.wellFormed` and `State.withinCapacity`, clause by clause. -/
structure State.Sound (s : State) : Prop where
  nodes      : Table.wf s.nt.nodes = true
  marks      : setWf s.nt.unknownMarks = true
  detectors  : s.nt.detectorCount.length = 16
  healthy    : s.nt.healthyCount.length = 16
  zones      : Table.wf s.zt.zones = true
  lines      : Table.wf s.lu.lines = true
  conditions : s.lu.conditions.length = 16
  raw        : s.lu.raw.length = 16
  release    : s.lu.release.length = 8
  climate    : s.cu.climate.length = 16
  actuators  : Table.wf s.pc.actuators = true
  fire       : s.fz.fire.length = 16
  sets       : ∀ f ∈ s.fz.fire, setWf f.knock = true ∧ setWf f.alarm = true
  locks      : Table.wf s.la.locks = true
  cartridges : Table.wf s.cat.cartridges = true
  parties    : Table.wf s.pt.parties = true
  arrivals   : setWf (s.lif.txq.map (·.arrival)) = true
  below      : ∀ it ∈ s.lif.txq, it.arrival < s.lif.txArrivals
  ring       : s.lif.ring.length ≤ 16
  queue      : s.lif.txq.length ≤ 24
  epochs     : s.cu.epochs.length ≤ 2
  orders     : s.ol.orders.length ≤ 64
  list0      : s.he0.list.length ≤ 48
  list1      : s.he1.list.length ≤ 48
  ingress    : s.ti.ingress.length ≤ 4
  replies    : s.ti.replies.length ≤ 8
  hand       : s.ti.inHand = none ∨ s.ti.replies.length ≤ 7
  notices    : s.ti.notices.length ≤ 32
  sorted     : noticesSorted s.ti.notices = true

theorem State.sound_iff (s : State) : s.Sound ↔ s.wellFormed = true ∧ s.withinCapacity = true := by
  simp only [State.wellFormed, State.tablesWf, State.shaped, State.arrivalsRising, State.withinCapacity, Ti.room,
    Bool.and_eq_true, Bool.or_eq_true, decide_eq_true_eq, List.all_eq_true, Option.isNone_iff_eq_none, and_assoc]
  constructor
  · intro h
    exact ⟨h.nodes, h.zones, h.lines, h.actuators, h.locks, h.cartridges, h.parties, h.marks, h.sets, h.fire, h.climate,
      h.conditions, h.raw, h.release, h.detectors, h.healthy, h.arrivals, h.below, h.sorted, h.ring, h.queue, h.epochs, h.orders,
      h.list0, h.list1, h.ingress, h.replies, h.hand, h.notices⟩
  · rintro ⟨a1, a2, a3, a4, a5, a6, a7, a8, a9, b1, b2, b3, b4, b5, b6, b7, c1, c2, c3, d1, d2, d3, d4, d5, d6, e1, e2, e3, e4⟩
    exact ⟨a1, a8, b6, b7, a2, a3, b3, b4, b5, b2, a4, b1, a9, a5, a6, a7, c1, c2, d1, d2, d3, d4, d5, d6, e1, e2, e3, e4, c3⟩

/-! ## Notices -/

theorem insertNotice_length (q : List Notice) (n : Notice) : (insertNotice q n).length = q.length + 1 := by
  induction q with
  | nil => rfl
  | cons x l ih =>
    simp only [insertNotice]
    split
    · rfl
    · simp [ih]

theorem queueNotice_length {q : List Notice} (lost : Nat) (n : Notice) (h : q.length ≤ 32) :
    (queueNotice q lost n).1.length ≤ 32 := by
  unfold queueNotice
  split
  · rw [insertNotice_length]
    omega
  · split
    · split
      · rw [insertNotice_length, List.length_dropLast]
        omega
      · exact h
    · exact h

theorem noticesSorted_cons {x : Notice} {l : List Notice} :
    noticesSorted (x :: l) = true ↔ (∀ y ∈ l, y.cls ≤ x.cls) ∧ noticesSorted l = true := by
  simp [noticesSorted, List.all_eq_true]

theorem insertNotice_mem {q : List Notice} {n x : Notice} (h : x ∈ insertNotice q n) : x = n ∨ x ∈ q := by
  induction q with
  | nil => simpa [insertNotice] using h
  | cons y l ih =>
    simp only [insertNotice] at h
    split at h
    · simpa using h
    · rcases List.mem_cons.1 h with rfl | h
      · exact .inr List.mem_cons_self
      · exact (ih h).imp id (List.mem_cons_of_mem _)

/-- Placing a notice keeps the queue by class (R204). -/
theorem insertNotice_sorted {q : List Notice} (n : Notice) (h : noticesSorted q = true) :
    noticesSorted (insertNotice q n) = true := by
  induction q with
  | nil => rfl
  | cons y l ih =>
    have hc := noticesSorted_cons.1 h
    simp only [insertNotice]
    split
    · rename_i lt
      refine noticesSorted_cons.2 ⟨fun x hx => ?_, h⟩
      rcases List.mem_cons.1 hx with rfl | hx
      · omega
      · have := hc.1 x hx
        omega
    · refine noticesSorted_cons.2 ⟨fun x hx => ?_, ih hc.2⟩
      rcases insertNotice_mem hx with rfl | hx
      · omega
      · exact hc.1 x hx

theorem noticesSorted_dropLast {q : List Notice} (h : noticesSorted q = true) : noticesSorted q.dropLast = true := by
  induction q with
  | nil => rfl
  | cons y l ih =>
    cases l with
    | nil => rfl
    | cons z l =>
      have hc := noticesSorted_cons.1 h
      show noticesSorted (y :: (z :: l).dropLast) = true
      exact noticesSorted_cons.2 ⟨fun x hx => hc.1 x (List.mem_of_mem_dropLast hx), ih hc.2⟩

theorem queueNotice_sorted {q : List Notice} (lost : Nat) (n : Notice) (h : noticesSorted q = true) :
    noticesSorted (queueNotice q lost n).1 = true := by
  unfold queueNotice
  split
  · exact insertNotice_sorted n h
  · split
    · split
      · exact insertNotice_sorted n (noticesSorted_dropLast h)
      · exact h
    · exact h

/-! ## Queue order -/

theorem setWf_append {l : List Nat} {n : Nat} (h : setWf l = true) (b : ∀ x ∈ l, x < n) : setWf (l ++ [n]) = true := by
  induction l with
  | nil => rfl
  | cons y l ih =>
    simp only [setWf, Bool.and_eq_true, List.all_eq_true, decide_eq_true_eq, List.cons_append] at h ⊢
    refine ⟨?_, ih h.2 (fun x hx => b x (List.mem_cons_of_mem _ hx))⟩
    intro x hx
    rcases List.mem_append.1 hx with hx | hx
    · exact h.1 x hx
    · rw [List.mem_singleton.1 hx]
      exact b y List.mem_cons_self

theorem filter_map_arrival (q : List TxItem) (n : Nat) :
    (q.filter (fun it => decide (it.arrival ≠ n))).map (·.arrival) = (q.map (·.arrival)).filter (fun a => decide (a ≠ n)) := by
  induction q with
  | nil => rfl
  | cons x q ih =>
    by_cases hx : x.arrival ≠ n
    · rw [List.filter_cons_of_pos (by simpa using hx), List.map_cons, List.map_cons,
        List.filter_cons_of_pos (by simpa using hx), ih]
    · rw [List.filter_cons_of_neg (by simpa using hx), List.map_cons, List.filter_cons_of_neg (by simpa using hx), ih]

theorem filter_length_lt {α : Type} {p : α → Bool} {l : List α} {a : α} (h : a ∈ l) (n : p a = false) :
    (l.filter p).length < l.length := by
  induction l with
  | nil => cases h
  | cons x l ih =>
    rcases List.mem_cons.1 h with rfl | h
    · simp only [List.filter, n, List.length_cons]
      exact Nat.lt_succ_of_le (List.length_filter_le _ _)
    · have := ih h
      simp only [List.filter]
      split <;> simp only [List.length_cons] <;> omega

theorem State.Sound.fire_sets {s : State} (h : s.Sound) (z : Nat) :
    setWf (s.fire z).knock = true ∧ setWf (s.fire z).alarm = true := by
  unfold State.fire
  rw [List.getD_eq_getElem?_getD]
  cases e : s.fz.fire[z]? with
  | none => exact ⟨rfl, rfl⟩
  | some f => exact h.sets f (List.mem_of_getElem? e)

theorem State.Sound.setFire {s : State} (h : s.Sound) (z : Nat) {f : Fire} (k : setWf f.knock = true)
    (a : setWf f.alarm = true) : (s.setFire z f).Sound :=
  { h with
    fire := (List.length_set).trans h.fire
    sets := fun g hg => by
      rcases List.mem_or_eq_of_mem_set hg with hg | rfl
      · exact h.sets g hg
      · exact ⟨k, a⟩ }

theorem State.Sound.queued {s : State} (h : s.Sound) {q : List TxItem} (r : TxRequest)
    (w : setWf (q.map (·.arrival)) = true) (b : ∀ it ∈ q, it.arrival < s.lif.txArrivals) (n : q.length < 24) :
    (({ s with lif := { s.lif with txq := q } } : State).placeTx r).Sound :=
  { h with
    arrivals := by
      simp only [State.placeTx, List.map_append, List.map_cons, List.map_nil]
      refine setWf_append w ?_
      intro x hx
      obtain ⟨it, hit, rfl⟩ := List.mem_map.1 hx
      exact b it hit
    below := by
      intro it hit
      simp only [State.placeTx] at hit ⊢
      rcases List.mem_append.1 hit with hit | hit
      · exact Nat.lt_succ_of_lt (b it hit)
      · rw [List.mem_singleton.1 hit]
        exact Nat.lt_succ_self _
    queue := by
      simp only [State.placeTx, List.length_append, List.length_singleton]
      omega }

/-- TI's taking keeps form and capacities: it takes only where a reply has a place (R188). -/
theorem State.Sound.takeNext {s : State} (h : s.Sound) : s.takeNext.Sound := by
  rcases s.takeNext_cases with e | ⟨d, l, -, i, r, -, e⟩
  · rw [e]
    exact h
  · rw [e]
    have := h.ingress
    rw [i, List.length_cons] at this
    exact { h with ingress := by show l.length ≤ 4; omega, hand := .inr (by show s.ti.replies.length ≤ 7; omega) }

/-- A directive let go leaves the place of its reply (R187). -/
theorem State.Sound.dropHand {s : State} (h : s.Sound) : s.dropHand.Sound := { h with hand := .inl rfl }

/-- A directive in hand has a place for its reply (R187, R188). -/
theorem State.Sound.room {s : State} (h : s.Sound) {x : InHand} (e : s.ti.inHand = some x) : s.ti.replies.length ≤ 7 :=
  h.hand.resolve_left (by rw [e]; simp)

/-- A reply where one has a place. -/
theorem State.Sound.reply {s : State} (h : s.Sound) (n : s.ti.inHand = none) (l : s.ti.replies.length ≤ 7)
    {d : Directive} {r : Result} {b : ReplyBody} : (s.reply d r b).Sound :=
  { h with replies := by simp only [State.reply, List.length_append, List.length_singleton]; omega, hand := .inl n }

/-- Form and capacities survive every shared operation. -/
theorem State.Sound.kept : KeptFire State.Sound where
  post h := { h with notices := queueNotice_length _ _ h.notices, sorted := queueNotice_sorted _ _ h.sorted }
  passDownOutcome {s o} h := by
    unfold State.passDownOutcome
    split
    · rename_i d e
      exact (h.dropHand.reply rfl (h.room e)).takeNext
    all_goals exact h
  setLock h := { h with locks := Table.wf_put _ _ h.locks }
  delLock h := { h with locks := Table.wf_del _ h.locks }
  setActuator h := { h with actuators := Table.wf_put _ _ h.actuators }
  delActuator h := { h with actuators := Table.wf_del _ h.actuators }
  setOrder h := { h with orders := (List.length_map _).trans_le h.orders }
  delOrder h := { h with orders := (List.length_filter_le _ _).trans h.orders }
  place h n := h.queued _ h.arrivals h.below n
  swap {s v r} h m := by
    refine h.queued _ (q := s.lif.txq.filter (fun it => it.arrival ≠ v.arrival)) ?_ ?_ ?_
    · rw [filter_map_arrival]
      exact filter_setWf _ h.arrivals
    · exact fun it hit => h.below it (List.mem_filter.1 hit).1
    · exact (filter_length_lt m (by simp)).trans_le h.queue
  mapOrigins {s f} h :=
    { h with
      arrivals := by
        simp only [State.mapOrigins, List.map_map]
        exact h.arrivals
      below := by
        intro it hit
        obtain ⟨x, hx, rfl⟩ := List.mem_map.1 hit
        exact h.below x hx
      queue := (List.length_map _).trans_le h.queue }
  flags {s z _ _} h _ := h.setFire z (h.fire_sets z).1 (h.fire_sets z).2
  cleared {s z} h := h.setFire z (h.fire_sets z).1 (h.fire_sets z).2
  alert h := { h with }
  setCartridge h := { h with cartridges := Table.wf_put _ _ h.cartridges }
  delCartridge h := { h with cartridges := Table.wf_del _ h.cartridges }
  party h := { h with parties := Table.wf_put _ _ h.parties }
  setEngine {s e x} h n := by
    cases e
    · exact { h with list0 := n.elim id (fun n => n.trans h.list0) }
    · exact { h with list1 := n.elim id (fun n => n.trans h.list1) }
  setClimate h := { h with climate := (List.length_set).trans h.climate }
  setFire {s z f} h k a := h.setFire z (k (h.fire_sets z).1) (a (h.fire_sets z).2)
  setActive h := { h with }
  fault h := { h with }
  release h := { h with release := (List.length_set).trans h.release }
  conditions h := { h with conditions := (List.length_set).trans h.conditions }
  setNode h := { h with nodes := Table.wf_put _ _ h.nodes }
  faultSilent h := { h with }
  healthy h := { h with healthy := (List.length_set).trans h.healthy }

/-- With no directive in hand, no operation below the directives makes a reply or takes one in hand. -/
def State.HandFree (rs : List Reply) (s : State) : Prop := s.ti.inHand = none ∧ s.ti.replies = rs

theorem State.HandFree.kept (rs : List Reply) : KeptFire (State.HandFree rs) where
  post h := h
  passDownOutcome {s o} h := by
    unfold State.passDownOutcome
    rw [h.1]
    exact h
  setLock h := h
  delLock h := h
  setActuator h := h
  delActuator h := h
  setOrder h := h
  delOrder h := h
  place h _ := h
  swap h _ := h
  mapOrigins h := h
  flags h _ := h
  cleared h := h
  alert h := h
  setCartridge h := h
  delCartridge h := h
  party h := h
  setEngine {s e x} h _ := by cases e <;> exact h
  setClimate h := h
  setFire h _ _ := h
  setActive h := h
  fault h := h
  release h := h
  conditions h := h
  setNode h := h
  faultSilent h := h
  healthy h := h

/-- The fire states of the zones and FIRE_ACTIVE. -/
def State.Burning (states : List FireState) (active : Bool) (s : State) : Prop :=
  s.fz.fire.map (·.state) = states ∧ s.fz.fireActive = active

/-- The other fields of a fire record may change without a change of the states. -/
theorem State.Burning.setFire {l : List FireState} {b : Bool} {s : State} (h : State.Burning l b s) (z : Nat) {f : Fire}
    (e : f.state = (s.fire z).state) : State.Burning l b (s.setFire z f) := by
  refine ⟨?_, h.2⟩
  rw [← h.1]
  simp only [State.setFire_fire, List.map_set, e]
  refine List.ext_getElem? fun i => ?_
  rw [List.getElem?_set]
  split
  · subst_vars
    rw [List.length_map, List.getElem?_map, State.fire, List.getD_eq_getElem?_getD]
    split
    · rename_i hz
      rw [List.getElem?_eq_getElem hz]
      rfl
    · rename_i hz
      rw [List.getElem?_eq_none (by omega)]
      rfl
  · rfl

/-- Only a change of fire state changes them. -/
theorem State.Burning.kept (l : List FireState) (b : Bool) : KeptSent (State.Burning l b) where
  post h := h
  passDownOutcome {s o} h := ⟨by rw [(s.passDownOutcome_frame o).2.2.2.2.2.2.2.1]; exact h.1,
    by rw [(s.passDownOutcome_frame o).2.2.2.2.2.2.2.1]; exact h.2⟩
  setLock h := h
  delLock h := h
  setActuator h := h
  delActuator h := h
  setOrder h := h
  delOrder h := h
  place h _ := h
  swap h _ := h
  mapOrigins h := h
  flags {s z u p} h _ := h.setFire z rfl
  cleared {s z} h := h.setFire z rfl
  alert h := h
  setCartridge h := h
  delCartridge h := h
  party h := h
  setEngine {s e x} h _ := by cases e <;> exact h
  setClimate h := h

/-! ## The rest of a fire record -/

/-- What a fire record holds beside the pending release and release-unconfirmed. -/
def Fire.core (f : Fire) : Fire := { f with unconfirmed := false, pendingRelease := false }

theorem State.fire_setFire (s : State) (z y : Nat) (f : Fire) :
    (s.setFire z f).fire y = if y = z ∧ z < s.fz.fire.length then f else s.fire y := by
  simp only [State.fire, State.setFire_fire, List.getD_eq_getElem?_getD, List.getElem?_set]
  by_cases h : z = y
  · subst h
    by_cases l : z < s.fz.fire.length
    · simp [l]
    · simp [l]
  · simp [h, Ne.symm h]

theorem State.fire_congr {s t : State} (h : t.fz.fire = s.fz.fire) (y : Nat) : t.fire y = s.fire y := by
  unfold State.fire
  rw [h]

/-- The rest of every fire record is `g`, and there are `n` of them. -/
structure State.FireCore (n : Nat) (g : Nat → Fire) (s : State) : Prop where
  size : s.fz.fire.length = n
  core : ∀ y, (s.fire y).core = g y

/-- Only a change of fire state changes it. -/
theorem State.FireCore.kept (n : Nat) (g : Nat → Fire) : KeptOut (State.FireCore n g) where
  post h := ⟨h.size, h.core⟩
  passDownOutcome {s o} h := by
    have e := (s.passDownOutcome_frame o).2.2.2.2.2.2.2.1
    exact ⟨by rw [e]; exact h.size, fun y => by rw [State.fire_congr (s := s) (t := s.passDownOutcome o) (by rw [e]) y]; exact h.core y⟩
  setLock h := ⟨h.size, h.core⟩
  delLock h := ⟨h.size, h.core⟩
  setActuator h := ⟨h.size, h.core⟩
  delActuator h := ⟨h.size, h.core⟩
  setOrder h := ⟨h.size, h.core⟩
  delOrder h := ⟨h.size, h.core⟩
  place h _ := ⟨h.size, h.core⟩
  swap h _ := ⟨h.size, h.core⟩
  mapOrigins h := ⟨h.size, h.core⟩
  flags {s z u p} h _ := by
    refine ⟨(List.length_set).trans h.size, fun y => ?_⟩
    rw [State.fire_setFire, ← h.core y]
    split
    · rename_i e
      rw [e.1]
      rfl
    · rfl
  cleared {s z} h := by
    refine ⟨(List.length_set).trans h.size, fun y => ?_⟩
    rw [State.fire_setFire, ← h.core y]
    split
    · rename_i e
      rw [e.1]
      rfl
    · rfl
  alert h := ⟨h.size, h.core⟩
  setCartridge h := ⟨h.size, h.core⟩
  delCartridge h := ⟨h.size, h.core⟩
  party h := ⟨h.size, h.core⟩
  setEngine {s e x} h _ := by cases e <;> exact ⟨h.size, h.core⟩
  setClimate h := ⟨h.size, h.core⟩
  setActive h := ⟨h.size, h.core⟩
  fault h := ⟨h.size, h.core⟩
  release h := ⟨h.size, h.core⟩
  conditions h := ⟨h.size, h.core⟩

/-- A change of fire state gives the zone the rest of its new record and leaves that of every other zone. -/
theorem State.changeFire_core (s : State) (z : Nat) (c : FireCause) (a : Option Nat) (f : Fire → Fire) :
    State.FireCore s.fz.fire.length
      (fun y => if y = z ∧ z < s.fz.fire.length then (f (s.fire z)).core else (s.fire y).core) (s.changeFire z c a f) := by
  refine (State.FireCore.kept _ _).handOn ⟨List.length_set, fun y => ?_⟩
  show ((s.setFire z (f (s.fire z))).fire y).core = _
  rw [State.fire_setFire]
  split <;> rfl

end Sys2Proof.Machine
end

