-- ==== Sys2Proof/Laws/Handover.lean ====
section
/-! SUPPORT. The lock claims and the engines: what queuing a telegram and the end of an exchange leave of them, and that an
inbound exchange closed in a fire commits as from the door's close. -/

namespace Sys2Proof.Machine

/-! ## What TI and the LIF do is the same whatever an engine holds -/

theorem State.takeNext_setEngine (s : State) (h : Hatch) (e : Engine) :
    (s.setEngine h e).takeNext = s.takeNext.setEngine h e := by
  cases h <;> unfold State.takeNext State.setEngine <;> dsimp only <;> split <;> (try split) <;> rfl

theorem State.passDownOutcome_setEngine (s : State) (h : Hatch) (e : Engine) (o : TxOutcome) :
    (s.setEngine h e).passDownOutcome o = (s.passDownOutcome o).setEngine h e := by
  have c : ∀ d, ((s.setEngine h e).dropHand.conclude d .ok (.outcome o))
      = (s.dropHand.conclude d .ok (.outcome o)).setEngine h e := by
    intro d
    unfold State.conclude
    rw [← State.takeNext_setEngine]
    cases h <;> rfl
  have t : (s.setEngine h e).ti = s.ti := by cases h <;> rfl
  unfold State.passDownOutcome
  rw [t]
  split <;> first | rfl | exact c _

theorem State.dropped_setEngine (s : State) (h : Hatch) (e : Engine) (o : Origin) :
    (s.setEngine h e).dropped o = (s.dropped o).setEngine h e := by
  cases o with
  | passDown => exact s.passDownOutcome_setEngine h e .dropped
  | release z live => cases live <;> cases h <;> rfl
  | lockSet a live =>
    cases live <;> cases h <;> unfold State.dropped State.lockDropped State.setEngine State.lock <;> dsimp only <;> split <;> rfl
  | actSet z r p live =>
    cases live <;> cases p <;> cases h <;> unfold State.dropped State.actDropped State.setEngine State.actuator <;>
      dsimp only <;> split <;> rfl
  | pick n d =>
    cases d <;> cases h <;> unfold State.dropped State.pickDropped State.setEngine State.order <;> dsimp only <;> split <;> rfl
  | alert | pickWithdraw | result _ => cases h <;> rfl

theorem State.requestTx_setEngine (s : State) (h : Hatch) (e : Engine) (r : TxRequest) :
    (s.setEngine h e).requestTx r = (s.requestTx r).setEngine h e := by
  have l : (s.setEngine h e).lif = s.lif := by cases h <;> rfl
  unfold State.requestTx
  rw [l]
  split
  · cases h <;> rfl
  · split
    · rw [show ∀ a, (s.setEngine h e).removeTx a = (s.removeTx a).setEngine h e by intro a; cases h <;> rfl,
        State.dropped_setEngine]
      cases h <;> rfl
    · exact State.dropped_setEngine _ _ _ _

@[simp] theorem State.setEngine_setEngine (s : State) (h : Hatch) (e f : Engine) :
    (s.setEngine h e).setEngine h f = s.setEngine h f := by cases h <;> rfl

/-- The end of an exchange takes of the engine what its notice tells. -/
theorem State.endExchange_setEngine (s : State) (h : Hatch) (e : Engine) (c : HandoverCause) (l : List (Nat × Label))
    (d : Option Nat) (g : Option (Nat × Nat)) (hd : e.direction = (s.engine h).direction) (hc : e.courier = (s.engine h).courier)
    (ho : e.operator = (s.engine h).operator) (ht : e.caseTag = (s.engine h).caseTag) :
    (s.setEngine h e).endExchange h c l d g = s.endExchange h c l d g := by
  have er : ∀ (s : State) k, (s.setEngine h e).endResult h k c.endCode = (s.endResult h k c.endCode).setEngine h e := by
    intro s k
    unfold State.endResult
    rw [show (s.setEngine h e).terminal k h = s.terminal k h by cases h <;> rfl]
    split
    · exact State.requestTx_setEngine _ _ _ _
    · rfl
  unfold State.endExchange
  simp only [State.engine_setEngine_same, hd, hc, ho, ht]
  rw [show ∀ b, (s.setEngine h e).post b = (s.post b).setEngine h e by intro b; cases h <;> rfl, er, er,
    State.setEngine_setEngine]

/-! ## The claims and the commanded states of the locks -/

/-- A lock's claims and commanded state (R53, R56). -/
def State.decided (s : State) (a : Nat) : Option (Claims × LockState) := (s.lock a).map (fun l => (l.claims, l.commanded))

/-- DROPPED for a LOCK_SET changes no lock's claims and no commanded state (R57). -/
theorem State.lockDropped_decided (s : State) (b : Nat) (live : Bool) (a : Nat) :
    (s.lockDropped b live).decided a = s.decided a := by
  unfold State.lockDropped
  split
  · next l h =>
    unfold State.decided State.lock State.setLock
    by_cases e : a = b
    · subst e; rw [Table.get_put_same, show Table.get s.la.locks a = some l from h]; rfl
    · rw [Table.get_put_other _ _ e]
  · rfl

/-- DROPPED changes no lock's claims and no commanded state (R57). -/
theorem State.dropped_decided (s : State) (o : Origin) (a : Nat) : (s.dropped o).decided a = s.decided a := by
  have la : ∀ t : State, t.la = s.la → t.decided a = s.decided a := by
    intro t h; unfold State.decided State.lock; rw [h]
  cases o with
  | lockSet b live => exact s.lockDropped_decided b live a
  | passDown => exact la _ (by unfold State.dropped; simp)
  | release z live => cases live <;> rfl
  | actSet z r p live => exact la _ (by show (s.actDropped z r p live).la = _; simp)
  | pick n d => exact la _ (by show (s.pickDropped n d).la = _; simp)
  | alert | pickWithdraw | result _ => rfl

/-- No request to queue a telegram changes a lock's claims or its commanded state (R21, R57). -/
theorem State.requestTx_decided (s : State) (r : TxRequest) (a : Nat) : (s.requestTx r).decided a = s.decided a := by
  unfold State.requestTx
  split
  · rfl
  · split
    · exact State.dropped_decided _ _ _
    · exact State.dropped_decided _ _ _

/-- After the decision of R56 the claims stand and the commanded state is theirs. -/
theorem State.setClaims_decided (s : State) (a : Nat) (f : Claims → Claims) (l : Lock) (h : s.lock a = some l) :
    (s.setClaims a f).decided a = some (f l.claims, (f l.claims).command) := by
  have g : ∀ (t : State) l, (t.setLock a l).lock a = some l := fun t l => Table.get_put_same _ _ _
  have d : ∀ (t : State) l, (t.setLock a l).decided a = some (l.claims, l.commanded) := by
    intro t l; unfold State.decided; rw [g]; rfl
  unfold State.setClaims
  rw [h]
  unfold State.decideLock
  simp only [g]
  split
  · next e => rw [d]; simp [← e]
  · split
    · unfold State.sendLock
      simp only [g]
      rw [State.requestTx_decided, d]
    · exact d _ _

/-- The other locks keep their claims and commanded states. -/
theorem State.setClaims_other (s : State) (a b : Nat) (f : Claims → Claims) (n : b ≠ a) :
    (s.setClaims a f).decided b = s.decided b := by
  have d : ∀ (t : State) l, (t.setLock a l).decided b = t.decided b := by
    intro t l; unfold State.decided State.lock State.setLock; rw [Table.get_put_other _ _ n]
  unfold State.setClaims
  split
  · rfl
  · unfold State.decideLock
    split
    · exact d _ _
    · split
      · exact d _ _
      · split
        · unfold State.sendLock
          dsimp only
          split
          · rw [d, d]
          · rw [State.requestTx_decided, d, d, d]
        · rw [d, d]

/-- A change of claims that changes none, on a lock whose commanded state is decided, changes nothing. -/
theorem State.setClaims_settled (s : State) (a : Nat) (f : Claims → Claims) (l : Lock) (w : Table.wf s.la.locks = true)
    (h : s.lock a = some l) (hf : f l.claims = l.claims) (hc : l.claims.command = l.commanded) : s.setClaims a f = s := by
  have e : s.setLock a l = s := by
    unfold State.setLock; rw [Table.put_get w h]
  unfold State.setClaims
  rw [h]
  simp only [hf]
  rw [show ({ l with claims := l.claims } : Lock) = l from rfl, e]
  unfold State.decideLock
  rw [h]
  simp [hc]

/-- Every shared operation keeps the form of the lock table. -/
theorem keptLocksWf : Kept (fun s => Table.wf s.la.locks = true) where
  post h := h
  passDownOutcome h := by simpa using h
  setLock h := Table.wf_put _ _ h
  delLock h := Table.wf_del _ h
  setActuator h := h
  delActuator h := h
  setOrder h := h
  delOrder h := h
  place h _ := h
  swap h _ := h
  mapOrigins h := h
  flags h _ := h
  alert h := h
  setCartridge h := h
  delCartridge h := h
  party h := h
  setEngine {s x e} h _ := by cases x <;> exact h
  setClimate h := h

/-- Removing a hatch's claim twice is removing it once (R54, R178). -/
theorem State.dropHandoverClaim_twice (s : State) (h : Hatch) (w : Table.wf s.la.locks = true) :
    (s.dropHandoverClaim h).dropHandoverClaim h = s.dropHandoverClaim h := by
  have z : (s.dropHandoverClaim h).hatchZone h = s.hatchZone h := by unfold State.hatchZone; simp
  unfold State.dropHandoverClaim at z ⊢
  split at z
  · next y g hz =>
    rw [z, hz]
    dsimp only
    cases hl : s.lock g.lock with
    | none => 
      have e : s.setClaims g.lock (fun c => c.setHandover h false) = s := by unfold State.setClaims; rw [hl]
      rw [e, e]
    | some l =>
      have d := s.setClaims_decided g.lock (fun c => c.setHandover h false) l hl
      unfold State.decided at d
      obtain ⟨l', h', e⟩ := Option.map_eq_some_iff.1 d
      simp only [Prod.mk.injEq] at e
      refine State.setClaims_settled _ _ _ l' (keptLocksWf.setClaims w) h' ?_ ?_
      · rw [e.1]; cases h <;> rfl
      · rw [e.1, e.2]
  · next hz => rw [z, hz]


theorem State.decideLock_setEngine (s : State) (h : Hatch) (e : Engine) (a : Nat) :
    (s.setEngine h e).decideLock a = (s.decideLock a).setEngine h e := by
  have lk : ∀ t : State, (t.setEngine h e).lock a = t.lock a := fun t => by unfold State.lock; simp
  have st : ∀ (t : State) l, (t.setEngine h e).setLock a l = (t.setLock a l).setEngine h e := by intro t l; cases h <;> rfl
  unfold State.decideLock
  rw [lk]
  split
  · rfl
  · split
    · rfl
    · rw [st]
      dsimp only
      split
      · unfold State.sendLock
        rw [lk]
        split
        · rfl
        · rw [st, State.requestTx_setEngine]
      · rfl

theorem State.dropHandoverClaim_setEngine (s : State) (h k : Hatch) (e : Engine) :
    (s.setEngine h e).dropHandoverClaim k = (s.dropHandoverClaim k).setEngine h e := by
  unfold State.dropHandoverClaim State.setClaims
  rw [show (s.setEngine h e).hatchZone k = s.hatchZone k by unfold State.hatchZone; simp]
  split
  · rw [show ∀ a, (s.setEngine h e).lock a = s.lock a by intro a; unfold State.lock; simp]
    split
    · rfl
    · rw [← State.decideLock_setEngine]
      cases h <;> rfl
  · rfl

theorem State.engine_dropHandoverClaim (s : State) (h k : Hatch) : (s.dropHandoverClaim h).engine k = s.engine k := by
  cases k <;> simp [State.engine]

theorem State.hatchFire_setEngine (s : State) (h : Hatch) (e : Engine) (z : Nat) :
    (s.setEngine h e).hatchFire z = s.hatchFire z := by cases h <;> rfl

/-- A removed claim leaves the fire states and FIRE_ACTIVE. -/
theorem State.hatchFire_dropHandoverClaim (s : State) (h : Hatch) (z : Nat) :
    (s.dropHandoverClaim h).hatchFire z = s.hatchFire z := by
  have b : State.Burning (s.fz.fire.map (·.state)) s.fz.fireActive (s.dropHandoverClaim h) :=
    (State.Burning.kept _ _).dropHandoverClaim ⟨rfl, rfl⟩
  have st : ((s.dropHandoverClaim h).fire z).state = (s.fire z).state := by
    have g := congrArg (fun l => l.getD z Fire.initial.state) b.1
    simp only [List.getD_map] at g
    exact g
  unfold State.hatchFire
  rw [b.2, st]

/-- An engine that enters INTAKE in a fire with its list empty, as R174 gives it, commits as from the door's close. -/
theorem State.enterIntake_fire (s : State) (h : Hatch) (w : Table.wf s.la.locks = true) (l : (s.engine h).list = [])
    (z : Nat) (g : HandoverGroup) (hz : s.hatchZone h = some (z, g)) (hf : s.hatchFire z = true) :
    s.enterIntake h = s.commitIn h .fireCommit := by
  have u : ∀ e, ((s.dropHandoverClaim h).setEngine h e).hatchZone h = some (z, g) := by
    intro e; rw [← hz]; unfold State.hatchZone; simp
  have f : ∀ e, ((s.dropHandoverClaim h).setEngine h e).hatchFire z = true := by
    intro e; rw [State.hatchFire_setEngine, State.hatchFire_dropHandoverClaim, hf]
  unfold State.enterIntake
  simp only [State.engine_dropHandoverClaim, u, f, if_true]
  unfold State.commitIn
  simp only [u, hz, State.engine_setEngine_same, l, List.foldl_nil, if_true, State.dropHandoverClaim_setEngine,
    State.dropHandoverClaim_twice s h w]
  refine (State.endExchange_setEngine _ _ _ _ _ _ _ ?_ ?_ ?_ ?_).trans rfl <;> rw [State.engine_dropHandoverClaim]

end Sys2Proof.Machine
end

