-- ==== Sys2Proof/Laws/Ring.lean ====
section
/-! SUPPORT. The head of the ring as its owner takes it. -/

namespace Sys2Proof.Machine

/-- An owner whose kind of item stands at the head acts on it, with the ring popped (R13, R14). -/
theorem State.takeHead_offers {s : State} {it : RingItem} {kind : Byte} {e : NodeEntry} (h : s.offers it kind e)
    (act : RingItem → State → State) : s.takeHead kind act = act it s.popRing := by
  obtain ⟨h1, h2, h3, h4⟩ := h
  unfold State.takeHead
  match hr : s.lif.ring, h1 with
  | x :: _, h1 =>
    simp only [List.head?_cons, Option.some.injEq] at h1
    subst h1
    simp [h2, State.isDispatched, h3, h4]

/-- An item whose source has no entry any more is no owner's (R13). -/
theorem State.takeHead_absent {s : State} {it : RingItem} (h : s.lif.ring.head? = some it) (n : s.node it.src = none)
    (kind : Byte) (act : RingItem → State → State) : s.takeHead kind act = s := by
  unfold State.takeHead
  match hr : s.lif.ring, h with
  | x :: _, h =>
    simp only [List.head?_cons, Option.some.injEq] at h
    subst h
    simp [State.isDispatched, n]

@[simp] theorem State.popRing_node (s : State) (a : Nat) : s.popRing.node a = s.node a := rfl
@[simp] theorem State.popRing_zone (s : State) (z : Nat) : s.popRing.zone z = s.zone z := rfl
@[simp] theorem State.popRing_lock (s : State) (a : Nat) : s.popRing.lock a = s.lock a := rfl

end Sys2Proof.Machine
end

