-- ==== Sys2Proof/Machine/Layout.lean ====
section
/-! DEFINITION. The bytes the part drives: its telegrams on the loop (R206) and its frames on the trunk (R207). These
are views of the state: no command reads them. A code or a field that chapter 11 does not number is an open constant
of Config (log 13). -/

namespace Sys2Proof.Machine

/-! ## Fields (R207) -/

/-- A field of one, two or four bytes; an absent one is all ones in its width. -/
def u1 (v : Nat) : List Byte := leBytes 1 v
def u2 (v : Nat) : List Byte := leBytes 2 v
def u4 (v : Nat) : List Byte := leBytes 4 v

/-- A field of `w` bytes that may be absent. -/
def optField (w : Nat) : Option Nat → List Byte
  | some v => leBytes w v
  | none => List.replicate w 0xFF#8

/-- A flag. -/
def flag (b : Bool) : List Byte := u1 (if b then 1 else 0)

/-- A signed reading in two bytes; an absent one is -32768 (R207). -/
def reading (v : Option Int) : List Byte := u2 ((v.getD (-32768)) % 65536).toNat

/-- A list or set: its count, then its members. -/
def listField {α : Type} (f : α → List Byte) (l : List α) : List Byte := u1 l.length ++ l.flatMap f

/-- A payload: its length, then its bytes. -/
def payloadField (p : List Byte) : List Byte := u1 p.length ++ p

/-- A code that chapter 11 does not number: the set and the member's place in it (log 13). -/
def openCode (set place : Nat) : List Byte := [Config.wireCode set place]

/-- A timer in seconds, absent where it is stopped (R38, R78, R93). -/
def timerField (t : Timer) : List Byte := optField 2 (t.map shownSeconds)

/-! ## Codes -/

def NodeClass.code : NodeClass → Nat
  | .probe => 1
  | .detector => 2
  | .slotStrip => 3
  | .lock => 4
  | .suppression => 5
  | .dehumidifier => 6
  | .humidifier => 7
  | .hatchReader => 8
  | .courierTerminal => 9
  | .pickDisplay => 10

def FireState.code : FireState → Nat
  | .normal => 0
  | .preAlarm => 1
  | .confirmed => 2
  | .countdown => 3
  | .held => 4
  | .released => 5
  | .isolated => 6

def Result.code : Result → Nat
  | .ok => 0
  | .busy => 1
  | .unverified => 2
  | .mismatch => 3
  | .badForm => 4
  | .range => 5
  | .notFound => 6
  | .inUse => 7
  | .duplicate => 8
  | .limit => 9
  | .conflict => 10
  | .zoneActive => 11
  | .protected_ => 12
  | .latched => 13
  | .checksum => 14
  | .badState => 15
  | .active => 16
  | .flagged => 17
  | .notPermitted => 18
  | .full => 19
  | .owned => 20

def Credential.code : Credential → Nat
  | .unverified => 0
  | .mismatch => 1
  | .verified => 2

def levelCode : Level → Nat
  | .low => 0
  | .high => 1

def LineFunction.code : LineFunction → Nat
  | .unused => 0
  | .abort => 1
  | .manualRelease => 2
  | .dischargeOk => 3
  | .panelAlarm => 4

def ZoneKind.code : ZoneKind → Nat
  | .storage => 1
  | .staging => 2
  | .handover => 3
  | .plant => 4

/-- The cartridge states: three are numbered by the catalogue entry, the others are open (R207, log 13). -/
def CartState.bytes : CartState → List Byte
  | .shelved => u1 1
  | .away => u1 2
  | .missing => u1 3
  | .ordered => openCode 0 0
  | .picked => openCode 0 1
  | .manifested => openCode 0 2
  | .inbound => openCode 0 3
  | .staging => openCode 0 4
  | .ready => openCode 0 5

def Supervision.bytes : Supervision → List Byte
  | .ok => openCode 1 0
  | .suspect => openCode 1 1
  | .fault => openCode 1 2
  | .silent => openCode 1 3

def NodeReason.bytes : NodeReason → List Byte
  | .recovered => openCode 2 0
  | .missed => openCode 2 1
  | .lost => openCode 2 2
  | .trouble => openCode 2 3
  | .noAnswer => openCode 2 4

def FireCause.bytes : FireCause → List Byte
  | .detAlarm => openCode 3 0
  | .singleKnock => openCode 3 1
  | .doubleKnock => openCode 3 2
  | .healthyCount => openCode 3 3
  | .panel => openCode 3 4
  | .manualRelease => openCode 3 5
  | .countdownLoaded => openCode 3 6
  | .abort => openCode 3 7
  | .abortReleased => openCode 3 8
  | .expiry => openCode 3 9
  | .fireReset => openCode 3 10
  | .isolate => openCode 3 11
  | .restore => openCode 3 12
  | .zoneRemoved => openCode 3 13

def TxOutcome.bytes : TxOutcome → List Byte
  | .delivered => openCode 4 0
  | .refusedByNode => openCode 4 1
  | .noAnswer => openCode 4 2
  | .dropped => openCode 4 3

/-- LOCKED and UNLOCKED on the trunk; 11.1 numbers them for LOCK_SET alone (log 13). -/
def LockState.bytes : LockState → List Byte
  | .locked => openCode 5 0
  | .unlocked => openCode 5 1

def LockFaultReason.bytes : LockFaultReason → List Byte
  | .refused => openCode 6 0
  | .noAnswer => openCode 6 1
  | .cleared => openCode 6 2

/-- The set of claims (R57, R58), its members by ascending code (R207, log 13); the expiry of a MAINTENANCE claim is not
told (log 42). -/
def Claims.bytes (c : Claims) : List Byte :=
  let ms := (if c.handover0 then [0] else []) ++ (if c.handover1 then [1] else [])
    ++ (if c.maintenance.isSome then [2] else []) ++ (if c.fireHold then [3] else [])
  listField u1 ((ms.map fun m => (Config.wireCode 7 m).toNat).insertionSort (· ≤ ·))

def ActState.bytes : ActState → List Byte
  | .off => openCode 8 0
  | .starting => openCode 8 1
  | .running => openCode 8 2
  | .stopping => openCode 8 3
  | .rest => openCode 8 4
  | .failed => openCode 8 5
  | .shut => openCode 8 6

def ActReason.bytes : ActReason → List Byte
  | .noAnswer => openCode 9 0
  | .refused => openCode 9 1
  | .detached => openCode 9 2
  | .cleared => openCode 9 3

def roleBytes : Role → List Byte
  | .dry => openCode 10 0
  | .wet => openCode 10 1

def Status.bytes : Status → List Byte
  | .unset => openCode 11 0
  | .stale => openCode 11 1
  | .inBand => openCode 11 2
  | .high => openCode 11 3
  | .low => openCode 11 4

def Demand.bytes : Demand → List Byte
  | .none => openCode 12 0
  | .dry => openCode 12 1
  | .wet => openCode 12 2

def CartReason.bytes : CartReason → List Byte
  | .removed => openCode 13 0
  | .picked => openCode 13 1
  | .reshelved => openCode 13 2
  | .shelvedEarly => openCode 13 3
  | .returnedIrregular => openCode 13 4
  | .inspectDue => openCode 13 5
  | .ready => openCode 13 6
  | .overdue => openCode 13 7
  | .cleared => openCode 13 8

def OrderState.bytes : OrderState → List Byte
  | .waiting => openCode 14 0
  | .released => openCode 14 1
  | .picked => openCode 14 2
  | .manifested => openCode 14 3

def OrderReason.bytes : OrderReason → List Byte
  | .done => openCode 15 0
  | .cancelled => openCode 15 1
  | .flagged => openCode 15 2
  | .quarantine => openCode 15 3

def Pick.bytes : Pick → List Byte
  | .notSent => openCode 16 0
  | .inFlight => openCode 16 1
  | .shown _ => openCode 16 2
  | .undelivered => openCode 16 3

/-- OUT and IN on the trunk; 11.1 numbers them for BADGE alone (log 13). -/
def Direction.bytes : Direction → List Byte
  | .out => openCode 17 0
  | .inward => openCode 17 1

def sideBytes : Side → List Byte
  | .reader => openCode 20 0
  | .courier => openCode 20 1

/-- The outcome and the cause of a handover's end, and the side of a CANCEL, a field of its own that is absent for
every other cause (R185, R207, log 39). -/
def HandoverCause.bytes : HandoverCause → List Byte
  | .doorClosed => openCode 18 0 ++ openCode 19 0 ++ optField 1 none
  | .close => openCode 18 0 ++ openCode 19 1 ++ optField 1 none
  | .intakeTimeout => openCode 18 0 ++ openCode 19 2 ++ optField 1 none
  | .fireCommit => openCode 18 0 ++ openCode 19 3 ++ optField 1 none
  | .cancel side => openCode 18 1 ++ openCode 19 4 ++ sideBytes side
  | .openTimeout => openCode 18 1 ++ openCode 19 5 ++ optField 1 none
  | .unlockTimeout => openCode 18 1 ++ openCode 19 6 ++ optField 1 none
  | .fireAbort => openCode 18 1 ++ openCode 19 3 ++ optField 1 none
  | .noLock => openCode 18 1 ++ openCode 19 7 ++ optField 1 none

def IgnoreReason.bytes : IgnoreReason → List Byte
  | .noHatch => openCode 21 0
  | .zoneMismatch => openCode 21 1

def DoorState.bytes : DoorState → List Byte
  | .unknown => openCode 22 0
  | .opened => openCode 22 1
  | .closed => openCode 22 2

/-! ## The status record (R201, R207) -/

/-- Reset causes, combined (R207). -/
def ResetCauses.bits (c : ResetCauses) : Nat :=
  (if c.powerOn then 1 else 0) + (if c.pin then 2 else 0) + (if c.supplyLow then 4 else 0) + (if c.restart then 8 else 0)

/-- Protect flags, combined (R207). -/
def ProtectFlags.bits (p : ProtectFlags) : Nat :=
  (if p.node then 1 else 0) + (if p.zone then 2 else 0) + (if p.site then 4 else 0) + (if p.line then 8 else 0)
    + (if p.catalogue then 16 else 0) + (if p.party then 32 else 0)

/-- The last load error: directive code, table id, offset, result code, each 0xFF when absent (R207). -/
def loadErrorBytes : Option LoadError → List Byte
  | none => List.replicate 4 0xFF#8
  | some e => [e.directive, e.table] ++ optField 1 e.offset ++ u1 e.code.code

/-- The status record in its 37 bytes (R207). -/
def StatusRecord.bytes (r : StatusRecord) : List Byte :=
  u1 r.causes.bits ++ u1 r.credential.code ++ u1 ((if r.blank then 1 else 0) + (if r.writing then 2 else 0))
    ++ flag r.latch ++ loadErrorBytes r.lastLoadError ++ flag r.clockUnset ++ u4 r.clock ++ flag r.restartArmed
    ++ u1 r.noticesLost ++ u1 r.protect.bits ++ flag r.fireActive ++ r.fire.flatMap (fun f => u1 f.code)
    ++ flag r.congested ++ [r.engine0.value, r.engine1.value] ++ u1 r.openOrders

/-! ## Entries read back (R38, R78, R93, R121, R146, R160, R198) -/

/-- The part's capacities: nodes, zones, input lines, release outputs, cartridges, parties, orders, hatches, list of a
hatch (R198). -/
def capacities : List Byte := [126, 16, 16, 8, 4096, 48, 64, 2, 48].flatMap u2

/-- A place: 0 where it is empty, else 1 and the entry (log 13). -/
def placeField {α : Type} (f : α → List Byte) : Option α → List Byte
  | none => u1 0
  | some a => u1 1 ++ f a

/-- The static and the live fields of a node entry, the RANGE mark for a probe alone (R24, R38). R207 names no width for
the last sequence, the line-error count and the reported condition, which get a byte each (DESIGN CHOICE, log 49). -/
def NodeEntry.bytes (e : NodeEntry) : List Byte :=
  u1 e.cls.code ++ u1 e.zone ++ u2 e.interval ++ flag e.relay ++ optField 2 e.slotBase
    ++ optField 1 (e.hatch.map hatchNumber) ++ e.sup.bytes ++ timerField e.timer ++ optField 1 (e.lastSeq.map (·.toNat))
    ++ u1 e.lineErrors ++ optField 1 (e.condition.map (·.toNat))
    ++ (if e.cls = .probe then flag e.rangeMark else optField 1 none)

/-- A group of a zone entry, all 0xFF where it is omitted (R207). -/
def groupField {α : Type} (w : Nat) (f : α → List Byte) : Option α → List Byte
  | some g => f g
  | none => List.replicate w 0xFF#8

/-- A zone entry in the order of its load (R207); a node it does not name is an absent field of the reply, all ones
(log 43). R207 names no width for the release delay, the filter factor k, the staging rate and the numbers of lines and hatches
(a byte each) and for the band's figures (2 bytes each), which go as in the load (DESIGN CHOICE, log 49). -/
def ZoneEntry.bytes (e : ZoneEntry) : List Byte :=
  u1 e.kind.code
    ++ groupField 18 (fun (g : ClimateGroup) => u2 g.target ++ u2 g.deadBand ++ u2 g.lo ++ u2 g.hi ++ u1 g.k ++ u2 g.stale
        ++ optField 1 g.dehum ++ optField 1 g.hum ++ u2 g.minRun ++ u2 g.minRest
        ++ u1 (match g.mode with
          | .auto => 0
          | .manual => 1)) e.climate
    ++ optField 1 e.fire.line ++ u1 e.fire.delay
    ++ u1 (match e.fire.policy with
      | .resume => 0
      | .restart => 1)
    ++ optField 1 e.fire.checkLine ++ optField 1 e.fire.display
    ++ groupField 3 (fun (g : StagingGroup) => u2 g.amin ++ u1 g.rate) e.staging
    ++ groupField 3 (fun (g : HandoverGroup) => u1 (hatchNumber g.hatch) ++ u1 g.lock ++ u1 g.staging) e.handover

/-- The run timer in its 2 bytes: its remaining seconds, ELAPSED or stopped (R93, R207). How ELAPSED is told is open
(log 13). -/
def RunTimer.bytes : RunTimer → List Byte
  | .running t => u2 (shownSeconds t)
  | .stopped => optField 2 none
  | .elapsed => u2 Config.elapsedTimer.toNat

/-- An actuator record (R93). -/
def Actuator.bytes (a : Actuator) : List Byte :=
  roleBytes a.role ++ u1 a.node ++ a.state.bytes ++ a.run.bytes ++ timerField a.rest ++ flag a.owed

/-- A climate record (R78). An absent fRH is sent as an absent signed reading is, -32768, like fT; R207 does not say whether
it is one (DESIGN CHOICE, log 44). -/
def Climate.bytes (c : Climate) : List Byte :=
  c.status.bytes ++ reading c.fRH ++ reading c.fT ++ c.demand.bytes ++ timerField c.stale

/-- A fire record (R121). -/
def Fire.bytes (f : Fire) : List Byte :=
  u1 f.state.code ++ listField u1 f.knock ++ listField u1 f.alarm ++ optField 2 f.remaining ++ flag f.releaseFault
    ++ flag f.unconfirmed ++ flag f.pendingRelease

/-- The identification string in its sixteen bytes (R207). -/
def identBytes (i : Option (List Byte)) : List Byte :=
  let str := i.getD []
  str ++ List.replicate (16 - str.length) 0x00#8

/-- The SITE entry's three fields (R47). -/
def SiteEntry.bytes (e : SiteEntry) : List Byte := u4 e.threshold ++ e.classes.flatMap u1 ++ identBytes (some e.ident)

/-- A line entry with its live fields (R48); the settle timer is told in seconds as every timer is (R207, log 14), and
the settle time, whose width R207 does not name, gets a byte as in the load (DESIGN CHOICE, log 49). -/
def LineEntry.bytes (l : LineEntry) : List Byte :=
  u1 l.function.code ++ u1 l.zone ++ u1 (levelCode l.active) ++ u1 l.settle ++ u1 (levelCode l.settled) ++ timerField l.timer

/-- A cartridge record: the fields of R122, then its current zone and its overdue mark, which R146 lists last (log 37). -/
def Cartridge.bytes (c : Cartridge) (zone : Option Nat) : List Byte :=
  c.label ++ u1 c.homeZone ++ u2 c.homeSlot ++ c.state.bytes ++ u4 c.exposure ++ flag c.hold ++ flag c.quarantine
    ++ flag c.inspect ++ optField 2 c.order ++ optField 2 c.courier ++ optField 4 c.dueBack
    ++ optField 1 (c.hatch.map hatchNumber) ++ optField 1 c.staging ++ optField 2 c.acclim ++ optField 1 zone ++ flag c.overdue

/-- A party entry in the order of R147, with a courier's held count and open orders; an OPERATOR's courier fields are
absent (R160, R207, log 38). The widths of the loan period, the limit, the held count and the open orders, which R207 does
not name, are 2 bytes (DESIGN CHOICE, log 49). -/
def Party.bytes (p : Party) (openOrders : Nat) : List Byte :=
  u2 p.id ++ u1 (if p.courier.isSome then 1 else 2) ++ u1 (if p.active then 0 else 1)
    ++ groupField 14 (fun (c : CourierFields) => u2 c.windowStart ++ u2 c.windowStop ++ flag c.outbound ++ flag c.inbound
        ++ u2 c.loan ++ u2 c.limit ++ u2 c.held ++ u2 openOrders) p.courier

/-- An order (R151, R160). -/
def Order.bytes (o : Order) : List Byte :=
  u2 o.number ++ u2 o.index ++ u2 o.courier ++ o.state.bytes ++ o.pick.bytes ++ optField 4 o.timeAccepted

/-! ## Replies and notices (R188, R203, R207) -/

/-- What a reply carries after its head, in the order of its rule; a place of READ_ENTRY is told empty or not first, while a
QUERY_NODE that is answered has an entry (R38, R198). The offset of a refused load entry gets a byte (DESIGN CHOICE,
log 49). -/
def ReplyBody.bytes : ReplyBody → List Byte
  | .empty => []
  | .loaded n => u1 n
  | .loadRefused t off => [t] ++ optField 1 off
  | .credential c b => u1 c.code ++ flag b
  | .identity i b => identBytes i ++ capacities ++ flag b
  | .status r => r.bytes
  | .clock c => u4 c
  | .queried e => e.bytes
  | .node e => placeField NodeEntry.bytes e
  | .zone e c acts f => placeField ZoneEntry.bytes e ++ c.bytes ++ listField Actuator.bytes acts ++ f.bytes
  | .site e => placeField SiteEntry.bytes e
  | .line e => placeField LineEntry.bytes e
  | .cartridge r => placeField (fun p => Cartridge.bytes p.1 p.2) r
  | .party e n => placeField (fun p => Party.bytes p n) e
  | .order o => o.bytes
  | .ordered n st => u2 n ++ st.bytes
  | .cancelled st => st.bytes
  | .fire st n panel => u1 st.code ++ u1 n ++ flag panel
  | .commanded st => st.bytes
  | .outcome o => o.bytes

/-- A cartridge of a handover's list: index and label (R185). -/
def listedBytes (p : Nat × Label) : List Byte := u2 p.1 ++ p.2

/-- What a notice carries after its kind, in the order its rule lists it. UNKNOWN_SOURCE gives the fields of R32, those it
has not absent, and then the kind (log 33); the reason of RELEASE_FAULT and of TERMINAL_IGNORED, which their rules name
outside the fields carried, is first and last (log 36). The codes of ON and OFF and of unicast and broadcast are open
(log 13). An absent fRH of CLIMATE_STATE is -32768 like an absent fT (log 44). R207 names no width for a line, a hatch and a
sequence, which get a byte each, and for the number of orders removed of QUARANTINE, which gets 2 (DESIGN CHOICE, log 49). -/
def NoticeBody.bytes : NoticeBody → List Byte
  | .startup c lost => u1 c.bits ++ flag lost ++ capacities
  | .fireState z b a c addr rem rf un kn al =>
    u1 z ++ u1 b.code ++ u1 a.code ++ c.bytes ++ optField 1 addr ++ optField 2 rem ++ flag rf ++ flag un ++ u1 kn ++ u1 al
  | .releaseFault z failed line chk =>
    openCode 23 (if failed then 0 else 1) ++ u1 z ++ optField 1 line ++ optField 1 chk
  | .releaseUnconfirmed z node o => u1 z ++ u1 node ++ o.bytes
  | .nodeState a c z st r => u1 a ++ u1 c.code ++ u1 z ++ st.bytes ++ r.bytes
  | .unknownSource a k => u1 a ++ optField 1 none ++ optField 1 none ++ optField 1 none ++ openCode 2 5 ++ [k]
  | .lockFault a st cl r => u1 a ++ st.bytes ++ cl.bytes ++ r.bytes
  | .doorHeld a st cl => u1 a ++ st.bytes ++ cl.bytes
  | .actuatorFailed z r node before on why =>
    u1 z ++ roleBytes r ++ u1 node
      ++ (match before with
        | some b => b.bytes
        | none => optField 1 none)
      ++ (match on with
        | some b => openCode 24 (if b then 1 else 0)
        | none => optField 1 none)
      ++ why.bytes
  | .ingressCongested => []
  | .quarantine z marked removed => u1 z ++ u2 marked ++ u2 removed
  | .handoverResult h d courier operator tag cause carts due st =>
    u1 (hatchNumber h)
      ++ (match d with
        | some d => d.bytes
        | none => optField 1 none)
      ++ optField 2 courier ++ optField 2 operator ++ optField 2 tag ++ cause.bytes ++ listField listedBytes carts
      ++ optField 4 due ++ optField 1 (st.map (·.1)) ++ optField 2 (st.map (·.2))
  | .climateState z b a rh t d => u1 z ++ b.bytes ++ a.bytes ++ reading rh ++ reading t ++ d.bytes
  | .cartridgeState i l b a ho q ins z o c r =>
    u2 i ++ l ++ b.bytes ++ a.bytes ++ flag ho ++ flag q ++ flag ins ++ optField 1 z ++ optField 2 o ++ optField 2 c
      ++ r.bytes
  | .foreign a z slot l => u1 a ++ u1 z ++ u2 slot ++ l
  | .misfiled a z slot l i hz hs st => u1 a ++ u1 z ++ u2 slot ++ l ++ u2 i ++ u1 hz ++ u2 hs ++ st.bytes
  | .orderClosed n l i c st r => u2 n ++ l ++ u2 i ++ u2 c ++ st.bytes ++ r.bytes
  | .pickUndelivered n l d o => u2 n ++ l ++ u1 d ++ o.bytes
  | .terminalIgnored a c z h k r => u1 a ++ u1 c.code ++ u1 z ++ u1 (hatchNumber h) ++ [k] ++ r.bytes
  | .relayed a k q uni p => u1 a ++ [k, q] ++ openCode 25 (if uni then 1 else 0) ++ payloadField p

/-- A frame: start byte, length, frame kind, tag, body and check (R207). -/
def frameBytes (kind : Byte) (tag : Word16) (body : List Byte) : List Byte :=
  let checked := u2 body.length ++ [kind] ++ u2 tag.toNat ++ body
  [0xD2#8] ++ checked ++ checkBytes (crc checked)

/-- The frame being sent, in its bytes (R188, R203, R207). -/
def State.trunkWire (s : State) : Option (List Byte) :=
  match s.ti.sending with
  | some (.reply r) => some (frameBytes 0x02#8 r.tag ([r.code] ++ u1 r.result.code ++ r.body.bytes))
  | some (.notice n) => some (frameBytes 0x03#8 n.tag (u1 (noticeKind n.body) ++ n.body.bytes))
  | none => none

/-! ## The loop (R206) -/

/-- The bytes of one of the part's telegrams: start byte, destination, source 127, kind, sequence, length, payload,
check (R17, R206). -/
def telegramBytes (it : TxItem) : List Byte :=
  let checked := u1 it.dest ++ [0x7F#8, it.kind, it.seq.getD 0#8] ++ u1 it.payload.length ++ it.payload
  [0xC3#8] ++ checked ++ checkBytes (crc checked)

/-- The telegram the part drives, in its bytes. -/
def State.loopWire (s : State) : Option (List Byte) :=
  if s.lif.loop = .sending then (s.lif.txq.find? (fun it => it.state = .onLoop)).map telegramBytes else none

/-- The byte the part drives in an acknowledge slot (R206). -/
def Answer.wire : Answer → Byte
  | .ack => 0x4B#8
  | .busy => 0xB4#8

end Sys2Proof.Machine
end

