-- ==== Sys2Proof/Tests/Slice0.lean ====
section
/-! SUPPORT. The package's own tests. Expected values come from the manual's worked examples and rules, named in each
comment; each test is one step or one operation on a small state built by the helpers below. -/

namespace Sys2Proof.Tests

open Sys2Proof.Machine

/-! ## Helpers: small states -/

/-- A node entry with an interval of 60 s. -/
def node (c : NodeClass) (zone : Nat) : NodeEntry :=
  { cls := c, zone := zone, interval := 60, relay := false, slotBase := if c = .slotStrip then some 128 else none,
    hatch := none, sup := .ok, timer := some 6000, lastSeq := none, lineErrors := 0, condition := none,
    rangeMark := false }

/-- A terminal's entry. -/
def terminal (c : NodeClass) (zone : Nat) (h : Hatch) : NodeEntry := { node c zone with hatch := some h }

/-- The climate group of the humidity filter's worked figures (4.3), with the plant of 5.7. -/
def climate2 : ClimateGroup :=
  { target := 450, deadBand := 30, lo := 400, hi := 500, k := 4, stale := 300, dehum := some 40, hum := none,
    minRun := 600, minRest := 300, mode := .auto }

/-- A fire group with a release line and a delay of 30 s. -/
def fireGroup (line : Option Nat) (policy : AbortPolicy) : FireGroup :=
  { line := line, delay := 30, policy := policy, checkLine := none, display := none }

/-- A STORAGE zone. -/
def storage (line : Option Nat) : ZoneEntry :=
  { kind := .storage, climate := some climate2, fire := fireGroup line .resume, staging := none, handover := none }

/-- The HANDOVER zone of a hatch (9.12): hatch lock 52, staging zone 9. -/
def hatchZone (h : Hatch) : ZoneEntry :=
  { kind := .handover, climate := some climate2, fire := fireGroup none .resume, staging := none,
    handover := some { hatch := h, lock := 52, staging := 9 } }

/-- A lock record without claims. -/
def lock : Lock :=
  { claims := { handover0 := false, handover1 := false, maintenance := none, fireHold := false }, commanded := .locked,
    sent := .locked, send := .idle, fault := false, door := .closed, doorTimer := none, heldMark := false }

/-- The letters ARC-04 and two digits. -/
def label (a b : Byte) : Label := [0x41#8, 0x52#8, 0x43#8, 0x2D#8, 0x30#8, 0x34#8, a, b]

/-- ARC-0417 (7.2). -/
def arc417 : Label := label 0x31#8 0x37#8

/-- ARC-0420 (7.2). -/
def arc420 : Label := label 0x32#8 0x30#8

/-- A record homed in zone 2. -/
def cart (l : Label) (slot : Nat) (st : CartState) : Cartridge :=
  { label := l, homeZone := 2, homeSlot := slot, state := st, exposure := 0, hold := false, quarantine := false,
    inspect := false, order := none, courier := none, dueBack := none, overdue := false, hatch := none, staging := none,
    acclim := none }

/-- Courier 5021 of 9.12. -/
def courier5021 : CourierFields :=
  { windowStart := 480, windowStop := 1080, outbound := true, inbound := true, loan := 14, limit := 10, held := 2 }

/-- A ring item of a node's class. -/
def item (src : Nat) (c : NodeClass) (kind : Byte) (payload : List Byte) : RingItem :=
  { src := src, kind := kind, seq := 0#8, payload := payload, unicast := true, cls := c }

/-- A queued telegram. -/
def tx (c : TxClass) (dest : Nat) (o : Origin) (st : TxState) (arrival : Nat) : TxItem :=
  { cls := c, dest := dest, kind := 0xA2#8, payload := [], origin := o, seq := none, busyRetries := 0, emptyRetries := 0,
    state := st, arrival := arrival }

/-- The state after reset with some of its blocks given. -/
def boot : State := State.reset

/-- A state with node entries. -/
def withNodes (l : Table NodeEntry) (s : State) : State := { s with nt := { s.nt with nodes := l } }

/-- A state with zone entries. -/
def withZones (l : Table ZoneEntry) (s : State) : State := { s with zt := { s.zt with zones := l } }

/-- A state with a fire record's state. -/
def withFire (z : Nat) (st : FireState) (s : State) : State := s.setFire z { s.fire z with state := st }

/-- A state with a ring. -/
def withRing (l : List RingItem) (s : State) : State := { s with lif := { s.lif with ring := l } }

/-- A state with a transmit queue and a loop state. -/
def withTx (loop : LoopState) (l : List TxItem) (s : State) : State :=
  { s with lif := { s.lif with loop := loop, txq := l, txArrivals := 100 } }

/-- A state whose loop is receiving. -/
def receiving (s : State) : State := { s with lif := { s.lif with loop := .receiving } }

/-- A state with a directive in hand, taken in VERIFIED. -/
def told (body : List Byte) (s : State) : State :=
  let d : Directive := { tag := 7#16, body := body }
  { s with ti := { s.ti with credential := .verified, inHand := some (.deciding d { s.reads d with verified := true }) } }

/-- What TI read at the taking of a directive that has no filter: whether the credential was VERIFIED, and CS. -/
def reading (v : Bool) (c : Cs) : Taking := { verified := v, cs := c, filter := none }

/-- The directive of `told`. -/
def dir (body : List Byte) : Directive := { tag := 7#16, body := body }

/-- A telegram with its check. -/
def telegram (dest src kind seq : Byte) (payload : List Byte) : Telegram :=
  let t : Telegram := { dest := dest, src := src, kind := kind, seq := seq, payload := payload, check := 0#16 }
  { t with check := crc (telegramChecked t) }

/-- A frame with its check. -/
def frame (kind : Byte) (body : List Byte) : Frame :=
  let f : Frame := { gap := 10, kind := kind, tag := 7#16, body := body, check := 0#16 }
  { f with check := crc (frameChecked f) }

/-- A state whose epoch timer has run out. -/
def atEpoch (s : State) : State := { s with cu := { s.cu with epochTimer := 0 } }

/-- The next state a command gives. -/
def after (c : Instr) (s : State) : State :=
  match exec c s with
  | .next t => t
  | .fault _ => boot
  | .refused _ => boot

/-! ## Well-formedness: each check refuses an ill-formed term -/

theorem test_payload_above_40_refused :
    Instr.wellFormed (.telegramReceived (telegram 127#8 5#8 1#8 0#8 (List.replicate 41 0#8))) = false := by decide

theorem test_body_above_600_refused :
    Instr.wellFormed (.frameReceived { gap := 10, kind := 1#8, tag := 0#16, body := List.replicate 601 0#8, check := 0#16 })
      = false := by decide +kernel

theorem test_address_0_and_127_refused :
    Instr.wellFormed (.intervalTimerExpiry 0) = false ∧ Instr.wellFormed (.intervalTimerExpiry 127) = false
      ∧ Instr.wellFormed (.doorHeldTimerExpiry 0) = false ∧ Instr.wellFormed (.maintenanceExpiry 127) = false := by decide

theorem test_line_16_refused :
    Instr.wellFormed (.rawLevelChange 16 .low) = false ∧ Instr.wellFormed (.settleTimerExpiry 16) = false := by decide

theorem test_zone_16_refused :
    Instr.wellFormed (.countdownExpiry 16) = false ∧ Instr.wellFormed (.staleTimerExpiry 16) = false
      ∧ Instr.wellFormed (.runTimerExpiry 16 .dry) = false ∧ Instr.wellFormed (.restTimerExpiry 16 .wet) = false := by decide

theorem test_ranges_admit_their_ends :
    Instr.wellFormed (.intervalTimerExpiry 126) = true ∧ Instr.wellFormed (.rawLevelChange 15 .high) = true
      ∧ Instr.wellFormed (.countdownExpiry 15) = true
      ∧ Instr.wellFormed (.telegramReceived (telegram 127#8 5#8 1#8 0#8 (List.replicate 40 0#8))) = true := by decide

/-! ## Encodings (chapter 11) -/

/-- The check of the nine bytes "123456789" (R206). -/
theorem test_check_of_the_digits :
    crc [0x31#8, 0x32#8, 0x33#8, 0x34#8, 0x35#8, 0x36#8, 0x37#8, 0x38#8, 0x39#8] = 0x29B1#16 := by decide +kernel

/-- No row of the table gives bits, so no word spells a command (log 24). -/
theorem test_no_word_spells_a_command : decodeTableWord 16 0 = none ∧ decodeTableWord 8 255 = none := by decide


/-- A STATUS of node 5 as sent, its check last, low byte first (R1, R206): 05's STATUS with one condition byte. -/
theorem test_telegram_check_covers_its_head :
    telegramCheckMatches (telegram 127#8 5#8 0x01#8 0#8 [0#8]) = true
      ∧ telegramCheckMatches { telegram 127#8 5#8 0x01#8 0#8 [0#8] with seq := 1#8 } = false := by decide +kernel

/-- The status record is 37 bytes (10.9, R207). -/
theorem test_status_record_length : (boot.statusRecord.bytes).length = 37 := by decide +kernel

/-- 11.2: the single LINE entry 1, 1, 3, 0, 5 sums to 10 (R193). -/
theorem test_segment_sum : segmentSum [1#8, 1#8, 3#8, 0#8, 5#8] = 10 := by decide +kernel

/-! ## The field loop (1.5, 1.6) -/

/-- Sixteen items of detector 31, its last accepted sequence 7 (1.5). -/
def crowded : State :=
  receiving (withRing (List.replicate 16 (item 31 .detector 0x10#8 []))
    (withNodes [(12, node .probe 2), (31, { node .detector 2 with lastSeq := some 7#8 })] boot))

/-- 1.5: at a full ring the first BUSY sets the mark and raises INGRESS_CONGESTED. -/
theorem test_full_ring_busy :
    (after (.telegramReceived (telegram 127#8 12#8 0x02#8 40#8 [0#8, 0#8, 0#8, 0#8])) crowded).lif.answer = some .busy
      ∧ (after (.telegramReceived (telegram 127#8 12#8 0x02#8 40#8 [0#8, 0#8, 0#8, 0#8])) crowded).lif.congested = true := by
  decide +kernel

/-- 1.5: the repeated DET_ALARM is answered ACK although the ring is full. -/
theorem test_duplicate_at_full_ring :
    (after (.telegramReceived (telegram 127#8 31#8 0x10#8 7#8 [])) crowded).lif.answer = some .ack
      ∧ (after (.telegramReceived (telegram 127#8 31#8 0x10#8 7#8 [])) crowded).lif.congested = false := by decide +kernel

/-- 1.5: the departure after which 8 items remain clears the mark. -/
theorem test_departure_clears_mark :
    let s := withRing (List.replicate 9 (item 12 .probe 0x20#8 [])) (withNodes [(12, node .probe 2)] boot)
    (after .undispatchedItem { s with lif := { s.lif with congested := true } }).lif.congested = false := by decide +kernel

/-- 1.6: a full queue of 1 LOCK, 6 ACTUATOR (the first on the loop) and 17 DISPLAY items. -/
def fullQueue : State :=
  withTx .awaiting
    ([tx .lock 53 (.lockSet 53 true) .ready 0, tx .actuator 40 (.actSet 2 .dry .off true) .onLoop 1]
      ++ (List.range 5).map (fun i => tx .actuator 40 (.actSet 2 .dry .off true) .ready (2 + i))
      ++ (List.range 17).map (fun i => tx .display 61 (.result .h0) .ready (7 + i))) boot

/-- 1.6: the RELEASE takes the place of the newest DISPLAY item. -/
theorem test_release_evicts_newest_display :
    ((fullQueue.requestTx { cls := .fire, dest := 45, kind := 0x80#8, payload := [3#8], origin := .release 3 true }).lif.txq.map
      (·.arrival)) = List.range 23 ++ [100] := by decide +kernel

/-- 1.6: a PICK at the full queue is itself refused. -/
theorem test_pick_refused_at_full_queue :
    (fullQueue.requestTx { cls := .display, dest := 61, kind := 0xA0#8, payload := [], origin := .pickWithdraw }).lif.txq.map
      (·.arrival) = List.range 24 := by decide +kernel

/-- 1.6: node 40's BUSY leaves the ACT_SET WAITING 200 ms with one retry used. -/
theorem test_busy_waits :
    ((after (.acknowledgeSlotAnswer 0xB4#8) fullQueue).lif.txq.getD 1 (tx .fire 0 .alert .ready 0)).state = .waiting 20
      ∧ ((after (.acknowledgeSlotAnswer 0xB4#8) fullQueue).lif.txq.getD 1 (tx .fire 0 .alert .ready 0)).busyRetries = 1 := by
  decide +kernel

/-! ## Nodes (2.8, 2.9) -/

/-- 2.8: zone 5 at t = 70 s, detector 32's timer expired. -/
def zone5 : State :=
  { withZones [(5, storage none)] (withNodes
      [(31, node .detector 5), (32, { node .detector 5 with timer := some 0 }), (33, node .detector 5)] boot) with
    nt := { nodes := [(31, node .detector 5), (32, { node .detector 5 with timer := some 0 }), (33, node .detector 5)]
            unknownMarks := [], detectorCount := (List.replicate 16 0).set 5 3
            healthyCount := (List.replicate 16 0).set 5 3, faultSilent := 0 } }

/-- 2.8, t = 70: 32 becomes SUSPECT, its timer running again, and the healthy count stays 3. -/
theorem test_missed_interval :
    ((after (.intervalTimerExpiry 32) zone5).node 32).map (fun e => (e.sup, e.timer)) = some (.suspect, some 6000)
      ∧ (after (.intervalTimerExpiry 32) zone5).healthy 5 = 3 := by decide +kernel

/-- 2.8, t = 90: NT takes 31's DET_TROUBLE: FAULT, the healthy count 2, the fault output asserted. -/
theorem test_det_trouble :
    let s := withRing [item 31 .detector 0x12#8 []]
      { zone5 with nt := { zone5.nt with
          nodes := Table.put zone5.nt.nodes 31 { node .detector 5 with lastSeq := some 0#8, timer := none } } }
    ((after .detTrouble s).node 31).map (·.sup) = some .fault ∧ (after .detTrouble s).healthy 5 = 2
      ∧ (after .detTrouble s).lu.fault = true := by decide +kernel

/-- 2.8, t = 130: in PRE_ALARM the fall of the healthy count to 1 confirms the fire. -/
theorem test_healthy_count_confirms :
    let l : Table NodeEntry := [(31, { node .detector 5 with sup := .fault, timer := none }),
      (32, { node .detector 5 with sup := .suspect, timer := some 0 }), (33, node .detector 5)]
    let s := withFire 5 .preAlarm { zone5 with nt := { zone5.nt with
      nodes := l, healthyCount := (List.replicate 16 0).set 5 2, faultSilent := 1 } }
    ((after (.intervalTimerExpiry 32) s).fire 5).state = .confirmed ∧ (after (.intervalTimerExpiry 32) s).healthy 5 = 1 := by
  decide +kernel

/-- 2.9: the table's nodes and zones. -/
def passing : State :=
  withFire 6 .confirmed (withZones [(2, storage none),
      (6, { kind := .plant, climate := none, fire := fireGroup none .resume, staging := none, handover := none })]
    (withNodes [(40, node .dehumidifier 2), (52, node .lock 2), (61, node .pickDisplay 2), (62, node .detector 6)] boot))

/-- The results of the replies a state holds. -/
def results (s : State) : List Result := s.ti.replies.map (·.result)

/-- 2.9: 2 to 6 are answered OWNED, OWNED, BAD_STATE, NOT_FOUND and RANGE. -/
theorem test_pass_down_filter :
    ([[0x40#8, 40#8, 200#8, 0#8], [0x40#8, 52#8, 200#8, 0#8], [0x40#8, 62#8, 200#8, 0#8], [0x40#8, 99#8, 200#8, 0#8],
      [0x40#8, 61#8, 100#8, 0#8]].map fun b => results (after .passDown (told b passing)))
      = [[.owned], [.owned], [.badState], [.notFound], [.range]] := by decide +kernel

/-- 2.9: the first is queued and held. -/
theorem test_pass_down_queued :
    (after .passDown (told [0x40#8, 61#8, 200#8, 0#8] passing)).lif.txq.map (fun t => (t.cls, t.dest, t.kind))
      = [(.display, 61, 200#8)] ∧ results (after .passDown (told [0x40#8, 61#8, 200#8, 0#8] passing)) = [] := by
  decide +kernel

/-! ## Lines and locks (3.3, 3.8) -/

/-- An ABORT line of zone 3, active LOW, settle 50 ms. -/
def abortLine (settled : Level) (timer : Timer) : LineEntry :=
  { function := .abort, zone := 3, active := .low, settle := 5, settled := settled, timer := timer }

/-- Zone 3 with lines 4 and 5 and a countdown of 300 tenths. -/
def zone3 (l4 l5 : LineEntry) (r4 r5 : Level) (policy : AbortPolicy) : State :=
  let s := withZones [(3, { storage (some 2) with fire := fireGroup (some 2) policy })] boot
  { (s.setFire 3 { Fire.initial with state := .countdown, remaining := some 180 }) with
    lu := { s.lu with lines := [(4, l4), (5, l5)], raw := (s.lu.raw.set 4 r4).set 5 r5 } }

/-- 3.3, at 0 ms: the settle timer starts with 50 ms; at 20 ms the bounce stops it. -/
theorem test_bounce :
    (Table.get (after (.rawLevelChange 4 .low) (zone3 (abortLine .high none) (abortLine .high none) .high .high .resume)).lu.lines
        4).map (·.timer) = some (some 5)
      ∧ (Table.get (after (.rawLevelChange 4 .high)
          (zone3 (abortLine .high (some 3)) (abortLine .high none) .low .high .resume)).lu.lines 4).map (·.timer)
        = some none := by decide +kernel

/-- 3.3, at 80 ms: line 4 settles LOW, the abort condition becomes active and the zone HELD with its count kept. -/
theorem test_abort_holds :
    let s := zone3 (abortLine .high (some 0)) (abortLine .high none) .low .high .resume
    ((after (.settleTimerExpiry 4) s).conditions 3).abort = true ∧ ((after (.settleTimerExpiry 4) s).fire 3).state = .held
      ∧ ((after (.settleTimerExpiry 4) s).fire 3).remaining = some 180 := by decide +kernel

/-- 3.3, at 4050 ms: line 4 settles HIGH while line 5 holds the condition: the zone stays HELD. -/
theorem test_second_abort_holds_on :
    let s := zone3 (abortLine .low (some 0)) (abortLine .low none) .high .low .resume
    let s1 := (s.setFire 3 { s.fire 3 with state := .held })
    let s2 : State := { s1 with lu := { s1.lu with
      conditions := s1.lu.conditions.set 3 { Conditions.inactive with abort := true } } }
    ((after (.settleTimerExpiry 4) s2).fire 3).state = .held
      ∧ ((after (.settleTimerExpiry 4) s2).conditions 3).abort = true := by decide +kernel

/-- Lock 52 with FIRE_HOLD (3.8). -/
def held52 : State :=
  ({ withNodes [(52, node .lock 14)] (withZones [(14, hatchZone .h0)] boot) with
     la := { locks := [(52, { lock with claims := { lock.claims with fireHold := true } })] } })

/-- 3.8, step 5: MAINT_UNLOCK 52 for 120 s is refused BAD_STATE. -/
theorem test_maint_unlock_refused : results (after .maintUnlock (told [0x33#8, 52#8, 120#8, 0#8] held52)) = [.badState] := by
  decide +kernel

/-- 3.8, step 6: with LOCK_FAULT set, hearing from node 52 sends LOCKED again. -/
theorem test_lock_sent_again :
    let s : State := { held52 with la := { locks := [(52, { lock with
      claims := { lock.claims with fireHold := true }, fault := true })] } }
    (after (.telegramReceived (telegram 127#8 52#8 0x01#8 9#8 [0#8])) (receiving s)).lif.txq.map (fun t => (t.kind, t.payload))
      = [(0x90#8, lockSetPayload .locked)] := by decide +kernel

/-! ## Climate (4.3, 4.6, 4.7) -/

/-- Zone 2 of the worked figures: accumulator 7200, fRH 450. -/
def zone2 : State :=
  let s := withZones [(2, storage none)] (withNodes [(12, node .probe 2)] boot)
  s.setClimate 2 { acc := 7200, accT := 3200, fRH := some 450, fT := some 200, status := .inBand, stale := some 30000,
                   demand := .none, fromNone := false }

/-- The figures after a SAMPLE of a humidity. -/
def sampled (lo hi : Byte) (s : State) : Int × Option Int × Status × Demand :=
  let c := (after .sample (withRing [item 12 .probe 0x02#8 [lo, hi, 200#8, 0#8]] s)).climate 2
  (c.acc, c.fRH, c.status, c.demand)

/-- Zone 2 with an accumulator and what it reports. -/
def zone2at (acc : Int) (fRH : Int) (st : Status) (d : Demand) : State :=
  zone2.setClimate 2 { zone2.climate 2 with acc := acc, fRH := some fRH, status := st, demand := d }

/-- 4.3, worked figures: the samples 520, 519 and 300 in turn. -/
theorem test_filter_steps :
    sampled 0x08#8 0x02#8 zone2 = (7480, some 468, .inBand, .none)
      ∧ sampled 0x07#8 0x02#8 (zone2at 7480 468 .inBand .none) = (7686, some 480, .inBand, .none)
      ∧ sampled 0x2C#8 0x01#8 (zone2at 7686 480 .inBand .none) = (6965, some 435, .inBand, .none) := by decide +kernel

/-- 4.3, worked figures: the second 600, the 450 after it and the last 400. -/
theorem test_filter_demand :
    sampled 0x58#8 0x02#8 (zone2at 7623 476 .inBand .none) = (8117, some 507, .high, .dry)
      ∧ sampled 0xC2#8 0x01#8 (zone2at 8117 507 .high .dry) = (7888, some 493, .inBand, .dry)
      ∧ sampled 0x90#8 0x01#8 (zone2at 7237 452 .inBand .dry) = (7028, some 439, .inBand, .none) := by decide +kernel

/-- 4.3, below freezing: a STALE zone seeded with -8 reports -8, and stepped with -3 it reports -7. -/
theorem test_temperature_below_freezing :
    (let c := Climate.empty.sampled climate2 450 (-8); (c.accT, c.fT)) = (-128, some (-8))
      ∧ (let c := ({ Climate.empty with accT := -128, fT := some (-8), status := .inBand }).sampled climate2 450 (-3)
         (c.accT, c.fT)) = (-108, some (-7)) := by decide +kernel

/-- 4.6: an epoch at 780 s merges into the second that waits: 33 + 33 = 66; 700 + 700 saturates to 1000. -/
theorem test_epoch_merge :
    let e (n : Nat) : Epoch := [{ excess := n, status := .inBand }]
    holdEpoch [e 33, e 33] (e 33) = [e 33, e 66] ∧ holdEpoch [e 700, e 700] (e 700) = [e 700, e 1000] := by
  decide +kernel

/-- Staging zone 9 with a reported temperature and a status. -/
def staging9 (fT : Int) (st : Status) (amin rate : Nat) : State :=
  let s := withZones [(9, { storage none with kind := .staging, staging := some { amin := amin, rate := rate } })] boot
  s.setClimate 9 { Climate.empty with fRH := some 450, fT := some fT, status := st }

/-- 4.7, worked cases: the eight lines of the table. -/
theorem test_acclimatization :
    [(staging9 186 .inBand 120 25).acclimRequirement 9 (some 41), (staging9 186 .inBand 120 25).acclimRequirement 9 none,
      (staging9 186 .inBand 120 25).acclimRequirement 9 (some 190), (staging9 186 .high 120 25).acclimRequirement 9 (some 189),
      (staging9 200 .low 60 10).acclimRequirement 9 (some 1200),
      (staging9 850 .inBand 1440 255).acclimRequirement 9 (some (-400)),
      (staging9 186 .inBand 120 0).acclimRequirement 9 (some 41), (staging9 186 .stale 120 25).acclimRequirement 9 (some 41)]
      = [483, 120, 130, 128, 710, 2880, 120, 2880] := by decide +kernel

/-! ## Plant (5.7) -/

/-- Zone 2's dehumidifier 40. -/
def dry40 (st : ActState) (run : RunTimer) (rest : Timer) : Actuator :=
  { zone := 2, role := .dry, node := 40, state := st, run := run, rest := rest, owed := false }

/-- Zone 2 with its dehumidifier and a demand. -/
def plant2 (a : Actuator) (d : Demand) : State :=
  let s := withZones [(2, storage none)] (withNodes [(12, node .probe 2), (40, node .dehumidifier 2)] zone2)
  (s.setActuator 2 .dry a).setClimate 2 { s.climate 2 with demand := d, acc := 8117, fRH := some 507, status := .high }

/-- The record and the kinds and payloads queued. -/
def plantView (s : State) : Option (ActState × RunTimer × Timer) × List (List Byte) :=
  ((s.actuator 2 .dry).map (fun a => (a.state, a.run, a.rest)), s.lif.txq.map (·.payload))

/-- 5.7, t = 601: the run timer expires with the demand gone: STOPPING, ELAPSED, an OFF. -/
theorem test_run_timer_demand_gone :
    plantView (after (.runTimerExpiry 2 .dry) (plant2 (dry40 .running (.running 0) none) .none))
      = (some (.stopping, .elapsed, none), [[0#8]]) := by decide +kernel

/-- 5.7, t = 602: the OFF is delivered: REST with 300 s, the run timer stopped. -/
theorem test_off_delivered_rests :
    let s := plant2 (dry40 .stopping .elapsed none) .none
    plantView (after (.acknowledgeSlotAnswer 0x4B#8)
        { s with lif := { s.lif with loop := .awaiting, txq := [{ tx .actuator 40 (.actSet 2 .dry .stopOff true) .onLoop 0 with
          kind := 0x91#8, payload := [0#8] }] } })
      = (some (.rest, .stopped, some 30000), []) := by decide +kernel

/-- 5.7, t = 903: the ON is delivered: RUNNING with 600 s. -/
theorem test_on_delivered_runs :
    let s := plant2 (dry40 .starting .stopped none) .dry
    plantView (after (.acknowledgeSlotAnswer 0x4B#8)
        { s with lif := { s.lif with loop := .awaiting, txq := [{ tx .actuator 40 (.actSet 2 .dry .startOn true) .onLoop 0 with
          kind := 0x91#8, payload := [1#8] }] } })
      = (some (.running, .running 60000, none), []) := by decide +kernel

/-- 5.7, t = 902: the rest timer expires with the demand present: STARTING, an ON. -/
theorem test_rest_timer_demand_present :
    plantView (after (.restTimerExpiry 2 .dry) (plant2 (dry40 .rest .stopped (some 0)) .dry))
      = (some (.starting, .stopped, none), [[1#8]]) := by decide +kernel

/-! ## Fire (6.12, 6.13) -/

/-- Zone 3 of 6.12 in a fire state: detectors 21 to 23, suppression node 45, lock 53, check line 6 settled active. -/
def fire3 (f : Fire) : State :=
  let s := withZones [(3, { storage (some 2) with fire := { fireGroup (some 2) .resume with checkLine := some 6 } })]
    (withNodes [(21, node .detector 3), (22, node .detector 3), (23, node .detector 3), (45, node .suppression 3),
      (53, node .lock 3)] boot)
  { (s.setFire 3 f) with
    nt := { s.nt with detectorCount := s.nt.detectorCount.set 3 3, healthyCount := s.nt.healthyCount.set 3 3 }
    la := { locks := [(53, lock)] }
    lu := { s.lu with lines := [(6, { abortLine .low none with function := .dischargeOk })],
                      conditions := s.lu.conditions.set 3 { Conditions.inactive with discharge := true } } }

/-- A zone's fire state, knock set, alarm set and remaining count. -/
def fireView (s : State) (z : Nat) : FireState × List Nat × List Nat × Option Nat :=
  ((s.fire z).state, (s.fire z).knock, (s.fire z).alarm, (s.fire z).remaining)

/-- 6.12, t = 0: the first DET_ALARM. -/
theorem test_first_knock :
    fireView (after .detAlarm (withRing [item 21 .detector 0x10#8 []] (fire3 Fire.initial))) 3
      = (.preAlarm, [21], [21], none) := by decide +kernel

/-- 6.12, t = 20: the second detector confirms, the check passes, the count is loaded and FIRE_ACTIVE locks lock 53. -/
theorem test_double_knock :
    let s := after .detAlarm (withRing [item 22 .detector 0x10#8 []]
      (fire3 { Fire.initial with state := .preAlarm, knock := [21] }))
    fireView s 3 = (.countdown, [21, 22], [22], some 300) ∧ s.fz.fireActive = true
      ∧ (s.lock 53).map (·.claims.fireHold) = some true := by decide +kernel

/-- 6.12, t = 78: the expiry asserts Q2, queues a RELEASE to 45 and sets release-unconfirmed. -/
theorem test_expiry_releases :
    let f : Fire := { Fire.initial with state := .countdown, knock := [21, 22], alarm := [22], remaining := some 0 }
    let s := after (.countdownExpiry 3) (fire3 f)
    fireView s 3 = (.released, [21, 22], [22], none) ∧ s.lu.release.getD 2 false = true
      ∧ s.lif.txq.any (fun t => t.cls = .fire && t.dest = 45 && t.kind = 0x80#8) = true
      ∧ (s.fire 3).unconfirmed = true := by decide +kernel

/-- 6.12, t = 300 and t = 330: FIRE_RESET is refused ACTIVE with 22 in alarm, and taken with the alarm set empty. -/
theorem test_fire_reset :
    let s := fire3 { Fire.initial with state := .released, knock := [21, 22], alarm := [22] }
    let t := fire3 { Fire.initial with state := .released, knock := [21, 22] }
    results (after .fireReset (told [0x30#8, 3#8] s)) = [.active]
      ∧ results (after .fireReset (told [0x30#8, 3#8] t)) = [.ok]
      ∧ fireView (after .fireReset (told [0x30#8, 3#8] t)) 3 = (.normal, [], [], none) := by decide +kernel

/-- 6.12, t = 320: DET_RESTORE takes 22 from the alarm set and leaves the state and the knock set. -/
theorem test_det_restore :
    fireView (after .detRestore (withRing [item 22 .detector 0x11#8 []]
        (fire3 { Fire.initial with state := .released, knock := [21, 22], alarm := [22] }))) 3
      = (.released, [21, 22], [], none) := by decide +kernel

/-! ## The catalogue (7.2, 7.3) -/

/-- Courier 5021, ACTIVE. -/
def party5021 : Party := { id := 5021, active := true, courier := some courier5021 }

/-- Order 311 of courier 5021 for index 417. -/
def order311 (st : OrderState) : Order :=
  { number := 311, index := 417, courier := 5021, state := st, pick := .notSent, timeAccepted := none }

/-- Slot strip 26 over zone 2 and the two cartridges (7.2). -/
def shelf (st : CartState) (os : OrderState) : State :=
  { withZones [(2, storage none)] (withNodes [(26, node .slotStrip 2)] boot) with
    cat := { cartridges := [(417, { cart arc417 130 st with order := some 311 }),
      (420, { cart arc420 133 .away with courier := some 5021 })] }
    ol := { orders := [order311 os], lastNumber := 311 }
    pt := { parties := [(0, party5021)] } }

/-- ARC-0417, order 311 and ARC-0420 after a slot event. -/
def shelfView (payload : List Byte) (s : State) : Option CartState × Option OrderState × Option (CartState × Bool) × Nat :=
  let t := after .slotEvent (withRing [item 26 .slotStrip 0x20#8 payload] s)
  ((t.cartridge 417).map (·.state), (t.order 311).map (·.state), (t.cartridge 420).map (fun c => (c.state, c.inspect)),
    t.heldCount 5021)

/-- 7.2, steps 1 and 2: taken, and put back. -/
theorem test_pick_and_put_back :
    shelfView [2#8, 1#8] (shelf .ordered .released) = (some .picked, some .picked, some (.away, false), 2)
      ∧ shelfView ([2#8, 2#8] ++ arc417) (shelf .picked .picked) = (some .ordered, some .released, some (.away, false), 2) := by
  decide +kernel

/-- 7.2, steps 4 and 6: a misfile changes no record; an AWAY cartridge in its home slot is SHELVED with INSPECT, and the
courier's held count falls. -/
theorem test_misfile_and_irregular_return :
    shelfView ([5#8, 2#8] ++ arc417) (shelf .picked .picked) = (some .picked, some .picked, some (.away, false), 2)
      ∧ shelfView ([5#8, 2#8] ++ arc420) (shelf .picked .picked) = (some .picked, some .picked, some (.shelved, true), 1) := by
  decide +kernel

/-- 7.3, one epoch: indices 12, 40, 41, 203, 204, 205 and 310. -/
def archive : State :=
  let c (slot : Nat) (st : CartState) (x : Nat) : Cartridge := { cart (label 0x30#8 (BitVec.ofNat 8 (0x30 + slot))) slot st with
    homeZone := 1, exposure := x }
  { boot with
    zt := { zones := [(1, storage none), (9, { storage none with kind := .staging, staging := some { amin := 0, rate := 0 } })]
            site := some { threshold := 10000, classes := List.replicate 18 1, ident := [0x4B#8] } }
    cat := { cartridges := [(12, c 0 .shelved 9990), (40, { c 1 .ordered 9970 with order := some 77 }),
      (41, { c 2 .picked 4000 with order := some 78 }),
      (203, { c 3 .staging 0 with staging := some 9, acclim := some 1 }),
      (204, { c 4 .staging 0 with staging := some 9, acclim := some 0 }),
      (205, { c 5 .staging 0 with staging := some 9, acclim := some 40 }),
      (310, { c 6 .manifested 15000 with order := some 90, hatch := some .h0 })] }
    ol := { orders := [{ order311 .released with number := 77, index := 40 }, { order311 .picked with number := 78, index := 41 },
                       { order311 .manifested with number := 90, index := 310 }], lastNumber := 90 } }

/-- The epoch of 7.3: zone 1 HIGH with an excess of 33. -/
def epoch33 : Epoch := (List.replicate 16 { excess := 0, status := .inBand }).set 1 { excess := 33, status := .high }

/-- 7.3: the states and exposures after the epoch. -/
theorem test_epoch_exposure :
    (archive.epochWork epoch33).cat.cartridges.map (fun p => (p.1, p.2.state, p.2.exposure))
      = [(12, .shelved, 10023), (40, .shelved, 10003), (41, .picked, 4033), (203, .ready, 0), (204, .ready, 0),
         (205, .staging, 0), (310, .manifested, 15000)] := by decide +kernel

/-- 7.3: INSPECT, what remains of the rests, and the orders that stay. -/
theorem test_epoch_marks :
    (archive.epochWork epoch33).cat.cartridges.map (fun p => (p.2.inspect, p.2.acclim))
      = [(true, none), (true, none), (false, none), (false, none), (false, none), (false, some 39), (false, none)]
      ∧ (archive.epochWork epoch33).ol.orders.map (·.number) = [78, 90] := by decide +kernel

/-! ## Orders (8.10) -/

/-- Zone 2 of 8.10 with cartridges ARC-0417 to ARC-0419, a courier's limit 3 and held count 1. -/
def ordering (orders : List Order) : State :=
  { boot with
    zt := { zones := [(2, storage none)], site := some { threshold := 0, classes := [], ident := [0x4B#8] } }
    cat := { cartridges := [(417, cart arc417 130 .shelved), (418, cart (label 0x31#8 0x38#8) 131 .shelved),
      (419, cart (label 0x31#8 0x39#8) 132 .shelved)] }
    ol := { orders := orders, lastNumber := 310 + orders.length }
    pt := { parties := [(0, { party5021 with courier := some { courier5021 with limit := 3, held := 1 } })] } }

/-- 8.10, step 1: order 311, RELEASED in a NORMAL zone; the courier's sum is 2. -/
theorem test_order_accepted :
    let s := after .order (told (0x20#8 :: arc417 ++ [0x9D#8, 0x13#8]) (ordering []))
    (s.ol.orders.map (fun o => (o.number, o.state)) = [(311, .released)]) ∧ s.courierSum 5021 = 2
      ∧ (s.cartridge 417).map (·.state) = some .ordered := by decide +kernel

/-- 8.10, step 3: a third order would make the sum 4, which passes the limit. -/
theorem test_order_over_the_limit :
    results (after .order (told (0x20#8 :: label 0x31#8 0x39#8 ++ [0x9D#8, 0x13#8])
      (ordering [order311 .released, { order311 .released with number := 312, index := 418 }]))) = [.limit] := by
  decide +kernel

/-! ## Handover (9.12) -/

/-- Hatch 0 of 9.12: zone 14, lock 52, reader 88, courier terminal 90, cartridges 417 and 421 PICKED, 419 a loose pick. -/
def hatch0 (e : Engine) : State :=
  { withZones [(9, { storage none with kind := .staging, staging := some { amin := 0, rate := 0 } }), (14, hatchZone .h0)]
      (withNodes [(52, node .lock 14), (88, terminal .hatchReader 14 .h0), (90, terminal .courierTerminal 14 .h0)] boot) with
    la := { locks := [(52, lock)] }
    cat := { cartridges := [(417, { cart arc417 130 .picked with order := some 311 }),
      (419, cart (label 0x31#8 0x39#8) 132 .picked), (421, { cart (label 0x32#8 0x31#8) 134 .picked with order := some 313 })] }
    ol := { orders := [order311 .picked, { order311 .picked with number := 313, index := 421 }], lastNumber := 313 }
    pt := { parties := [(0, party5021), (1, { id := 7003, active := true, courier := none })] }
    he0 := e
    ti := { boot.ti with clock := 3492000, clockSet := true } }

/-- An engine of 9.12 in a state with a list. -/
def exchange (st : EngineState) (l : List Nat) : Engine :=
  { Engine.idle with state := st, direction := some .out, courier := some 5021, operator := some 7003,
                     caseTag := some 4410, openTimer := some 60000, list := l }

/-- A terminal's item and what the engine then holds. -/
def exchanged (c : Instr) (it : RingItem) (e : Engine) : EngineState × List Nat :=
  let t := after c (withRing [it] (hatch0 e))
  ((t.engine .h0).state, (t.engine .h0).list)

/-- 9.12, t = 0: the courier's badge at minute 600 opens the exchange; an hour before the window it does not. -/
theorem test_courier_badge :
    let badge := item 90 .courierTerminal 0x40#8 [0x9D#8, 0x13#8, 1#8, 0x3A#8, 0x11#8, 0#8, 0x80#8]
    exchanged .badge badge Engine.idle = (.opened, [])
      ∧ (let s := withRing [badge] (hatch0 Engine.idle)
         ((after .badge { s with ti := { s.ti with clock := 3492000 - 180 * 60 } }).engine .h0).state) = .idle := by
  decide +kernel

/-- 9.12, t = 20: the operator's badge. -/
theorem test_operator_badge :
    exchanged .badge (item 88 .hatchReader 0x40#8 [0x5B#8, 0x1B#8]) { exchange .opened [] with operator := none }
      = (.scanning, []) := by decide +kernel

/-- 9.12, t = 35, 41 and 47: accepted, UNEXPECTED and DUPLICATE. -/
theorem test_scans :
    exchanged .scan (item 88 .hatchReader 0x41#8 arc417) (exchange .scanning []) = (.scanning, [417])
      ∧ exchanged .scan (item 88 .hatchReader 0x41#8 (label 0x31#8 0x39#8)) (exchange .scanning [417]) = (.scanning, [417])
      ∧ exchanged .scan (item 88 .hatchReader 0x41#8 arc417) (exchange .scanning [417]) = (.scanning, [417]) := by
  decide +kernel

/-- 9.12, t = 60: CLOSE ends the scanning. -/
theorem test_close : exchanged .close (item 88 .hatchReader 0x42#8 []) (exchange .scanning [417, 421])
    = (.confirm, [417, 421]) := by decide +kernel

/-- 9.12, t = 112: the second CONFIRM places HANDOVER(0) and commands the lock UNLOCKED. -/
theorem test_second_confirm :
    let t := after .confirm (withRing [item 90 .courierTerminal 0x43#8 []]
      (hatch0 { exchange .confirm [417, 421] with first := some .reader, confirmTimer := some 100 }))
    (t.engine .h0).state = .release ∧ (t.engine .h0).unlockTimer = some 6000
      ∧ (t.lock 52).map (fun l => (l.claims.handover0, l.commanded)) = some (true, .unlocked) := by decide +kernel

/-- 9.12, t = 140: door CLOSED commits: the loan of 14 days from the clock, the orders gone, the sum still 4. -/
theorem test_outbound_commit :
    let c (s : State) (i : Nat) : State := match s.cartridge i with
      | some c => s.setCartridge i { c with state := .manifested, hatch := some .h0 }
      | none => s
    let s : State := c (c (hatch0 { exchange .release [417, 421] with doorOpened := true, openTimer := none }) 417) 421
    let s1 : State := { s with
      la := { locks := [(52, { lock with
        door := .opened, doorTimer := some 5, claims := { lock.claims with handover0 := true, fireHold := true } })] },
      ol := { s.ol with orders := s.ol.orders.map (fun o => { o with state := .manifested }) },
      ti := { s.ti with clock := 3492140 } }
    let t := after .doorState (withRing [item 52 .lock 0x30#8 [2#8]] s1)
    (t.cartridge 417).map (fun c => (c.state, c.dueBack)) = some (.away, some 4701740)
      ∧ (t.cartridge 421).map (fun c => (c.state, c.courier)) = some (.away, some 5021)
      ∧ t.ol.orders = [] ∧ t.heldCount 5021 = 4 ∧ t.courierSum 5021 = 4 ∧ (t.engine .h0).state = .idle
      ∧ (t.lock 52).map (·.commanded) = some .locked := by decide +kernel

/-! ## The trunk (10.10, 10.11) -/

/-- A notice of a class. -/
def notice (c : Nat) (tag : Word16) : Notice := { cls := c, tag := tag, body := .ingressCongested }

/-- The queue of 10.11. -/
def fireQueue : State :=
  { boot with ti := { boot.ti with notices := List.replicate 4 (notice 3 1#16) ++ List.replicate 10 (notice 1 2#16)
                                                ++ List.replicate 18 (notice 0 3#16) } }

/-- How many notices of each class wait, and the count of losses. -/
def queueView (s : State) : List Nat × Nat :=
  ([3, 2, 1, 0].map (fun c => (s.ti.notices.filter (·.cls = c)).length), s.ti.noticesLost)

/-- 10.11: FIRE_STATE, NODE_STATE and RELAYED are posted. -/
theorem test_notice_queue :
    let s1 := fireQueue.post (.fireState 3 .normal .preAlarm .detAlarm none none false false 1 1)
    let s2 := s1.post (.nodeState 5 .probe 2 .suspect .missed)
    let s3 := s2.post (.relayed 5 1#8 0#8 true [])
    queueView s1 = ([5, 0, 10, 17], 1) ∧ queueView s2 = ([5, 1, 10, 16], 2) ∧ queueView s3 = ([5, 1, 10, 16], 3)
      ∧ s3.ti.noticeTag = boot.ti.noticeTag + 3#16 := by decide +kernel

/-- 10.10, tag 103: a segment sent while the latch is set is refused LATCHED, the last load error unchanged. -/
theorem test_latched_load :
    let body := [0x10#8, 1#8, 30#8, 0#8, 1#8] ++ List.replicate 9 0#8 ++ [0#8, 0#8]
    let s := told body { boot with ti := { boot.ti with latch := true } }
    results (after .loadSegment s) = [.latched] ∧ (after .loadSegment s).ti.lastLoadError = none := by decide +kernel

/-- 10.10, tag 105: CLEAR_STATUS clears the latch. -/
theorem test_clear_status :
    let s := told [0x05#8] { boot with ti := { boot.ti with latch := true } }
    results (after .clearStatus s) = [.ok] ∧ (after .clearStatus s).ti.latch = false := by decide +kernel

/-- 11.2: a LINE segment holding the single entry 1, 1, 3, 0, 5, placed as line 4. -/
theorem test_line_segment_applied :
    let s := told [0x10#8, 4#8, 4#8, 0#8, 1#8, 1#8, 1#8, 3#8, 0#8, 5#8, 0x0A#8, 0#8] boot
    results (after .loadSegment s) = [.ok]
      ∧ (Table.get (after .loadSegment s).lu.lines 4).map (fun l => (l.function, l.zone, l.active, l.settle))
        = some (.abort, 3, .low, 5) := by decide +kernel

/-! ## Witnesses: for each statement with hypotheses, states and operands that meet them, clause by clause -/

theorem witness_StepRunsTheFrontCommand : ({ boot with pending := [.pin, .minuteEpoch] }).pending = .pin :: [.minuteEpoch] := rfl

/-- The last tick of a second, at a clock that counts and at one that has reached its end; the last tick of a tenth. -/
theorem witness_EmptyQueueLetsATickPass :
    let s := (boot.setFire 3 { Fire.initial with state := .countdown, remaining := some 1, phase := 9 })
    s.pending = [] ∧ s.fz.fire[0]? = some Fire.initial ∧ Fire.initial.state ≠ .countdown
      ∧ s.fz.fire[3]? = some (s.fire 3) ∧ (s.fire 3).state = .countdown ∧ (s.fire 3).phase = 9
      ∧ (s.fire 3).remaining = some (0 + 1)
      ∧ (let t : State := { s with ti := { s.ti with clockTicks := 99, clock := 4294967294 } }
         t.pending = [] ∧ t.ti.clockTicks = 99 ∧ t.ti.clock < 4294967295)
      ∧ (let t : State := { s with ti := { s.ti with clockTicks := 99, clock := 4294967295 } }
         t.pending = [] ∧ t.ti.clockTicks = 99 ∧ t.ti.clock = 4294967295) := by decide +kernel

theorem witness_ResetsActAlikeOnEveryBlock :
    boot.cs.writing = none ∧ ({ boot.cs with writing := some [1#8, 2#8, 3#8, 4#8, 5#8, 6#8] }).writing
      = some [1#8, 2#8, 3#8, 4#8, 5#8, 6#8] := by decide

/-- A state of full lists in the form, with a command in front. -/
theorem witness_EveryStepKeepsFormAndCapacity :
    let s : State := { crowded with pending := [.undispatchedItem], lif := { crowded.lif with txq := fullQueue.lif.txq, txArrivals := 24 } }
    s.wellFormed = true ∧ s.withinCapacity = true ∧ s.lif.ring.length = 16 ∧ s.lif.txq.length = 24
      ∧ ∃ t, step s = .next t := by
  refine ⟨by decide +kernel, by decide +kernel, by decide +kernel, by decide +kernel, _, rfl⟩

theorem witness_FireActiveFollowsTheZones :
    let s : State := { fire3 { Fire.initial with state := .countdown, remaining := some 0 } with pending := [.countdownExpiry 3] }
    let t : State := { s with fz := { s.fz with fireActive := true } }
    t.fireActiveTrue = true ∧ ∃ u, step t = .next u := by
  refine ⟨by decide +kernel, _, rfl⟩

/-- Payloads of 0 and 40 bytes, a wrong check and a wrong destination; gaps 2 and 3 after a rejected telegram. -/
theorem witness_ReceptionsOpenAndAreDiscarded :
    let s := receiving (withNodes [(5, node .probe 2)] boot)
    let t40 := telegram 3#8 5#8 1#8 0#8 (List.replicate 40 0#8)
    let bad := { telegram 127#8 5#8 1#8 0#8 [] with check := 0#16 }
    s.lif.loop = .receiving ∧ t40.src = 5#8 ∧ t40.payload.length ≤ 40 ∧ t40.dest ≠ 0#8 ∧ t40.dest ≠ 127#8
      ∧ bad.payload.length ≤ 40 ∧ telegramCheckMatches bad = false ∧ s.node 5 = some (node .probe 2) ∧ s.node 6 = none
      ∧ boot.lif.loop = .quiet ∧ boot.lif.tail = false
      ∧ (let r : State := { boot with lif := { boot.lif with tail := true } }
         r.lif.loop = .quiet ∧ r.lif.tail = true ∧ 2 < 3 ∧ 2 ≤ 2) := by decide +kernel

theorem witness_DuplicateIsAcknowledgedAndDiscarded :
    let s := receiving (withNodes [(126, { node .probe 2 with lastSeq := some 255#8 })] boot)
    let t := telegram 127#8 126#8 0x02#8 255#8 []
    s.lif.loop = .receiving ∧ t.payload.length ≤ 40 ∧ telegramCheckMatches t = true ∧ t.dest = 127#8
      ∧ addressInRange t.src.toNat = true ∧ s.node 126 = some { node .probe 2 with lastSeq := some 255#8 } := by decide +kernel

/-- A ring of 15 items; a detector's DET_TROUBLE and another telegram. -/
theorem witness_AcceptedTelegramJoinsTheRing :
    let s := receiving (withRing (List.replicate 15 (item 5 .probe 2#8 [])) (withNodes [(1, node .detector 2)] boot))
    let t := telegram 127#8 1#8 0x12#8 0#8 []
    let u := telegram 0#8 1#8 0x10#8 0#8 []
    s.lif.loop = .receiving ∧ t.payload.length ≤ 40 ∧ telegramCheckMatches t = true ∧ t.dest = 127#8
      ∧ addressInRange t.src.toNat = true ∧ s.node t.src.toNat = some (node .detector 2)
      ∧ (node .detector 2).lastSeq ≠ some t.seq ∧ s.lif.ring.length < 16 ∧ telegramCheckMatches u = true ∧ u.dest = 0#8
      ∧ (node .detector 2).sup = .ok ∧ (node .detector 2).relay = false ∧ (node .detector 2).cls = .detector := by
  decide +kernel

theorem witness_FullRingAnswersBusy :
    let t := telegram 127#8 12#8 0x02#8 40#8 []
    let u := telegram 0#8 12#8 0x02#8 40#8 []
    let marked : State := { crowded with lif := { crowded.lif with congested := true } }
    crowded.lif.loop = .receiving ∧ t.payload.length ≤ 40 ∧ telegramCheckMatches t = true
      ∧ addressInRange t.src.toNat = true ∧ crowded.node t.src.toNat = some (node .probe 2)
      ∧ (node .probe 2).lastSeq ≠ some t.seq ∧ 16 ≤ crowded.lif.ring.length ∧ t.dest = 127#8
      ∧ crowded.lif.congested = false ∧ marked.lif.congested = true ∧ marked.lif.loop = .receiving
      ∧ telegramCheckMatches u = true ∧ u.dest = 0#8 := by decide +kernel

theorem witness_UnknownSourceIsReportedOnce :
    let t := telegram 127#8 99#8 0x02#8 40#8 []
    let s := receiving boot
    let u : State := { s with nt := { s.nt with unknownMarks := [99] } }
    s.lif.loop = .receiving ∧ t.payload.length ≤ 40 ∧ telegramCheckMatches t = true ∧ t.dest = 127#8
      ∧ addressInRange t.src.toNat = true ∧ s.node t.src.toNat = none ∧ t.src.toNat ∉ s.nt.unknownMarks
      ∧ u.node t.src.toNat = none ∧ t.src.toNat ∈ u.nt.unknownMarks := by decide +kernel

/-- A LOCK item between a waiting FIRE item and a younger LOCK item; the gaps 10 and, for FIRE, 4. -/
theorem witness_TransmitStartTakesTheOldestOfTheHighestClass :
    let a := tx .fire 45 (.release 3 true) (.waiting 1) 0
    let b := tx .lock 52 (.lockSet 52 true) .ready 1
    let c := tx .lock 53 (.lockSet 53 true) .ready 2
    let s := withTx .quiet [a, b, c] boot
    s.lif.loop = .quiet ∧ s.lif.txq = [a] ++ b :: [c] ∧ b.state = .ready
      ∧ (∀ x ∈ [a], x.state = .ready → x.cls.rank < b.cls.rank) ∧ (∀ x ∈ [c], x.state = .ready → x.cls.rank ≤ b.cls.rank)
      ∧ (∀ x ∈ [a] ++ [c], x.arrival ≠ b.arrival) ∧ (if b.cls = .fire then 4 else 10) ≤ 10
      ∧ (let f := tx .fire 45 (.release 3 true) .ready 0
         let u := withTx .quiet [f] boot
         u.lif.txq = [] ++ f :: [] ∧ f.state = .ready ∧ (if f.cls = .fire then 4 else 10) ≤ 4) := by decide +kernel

/-- The item on the loop of 1.6. -/
def onLoop : TxItem := tx .actuator 40 (.actSet 2 .dry .off true) .onLoop 1

theorem witness_AttemptsThatDoNotCount :
    let s := withTx .sending [tx .lock 53 (.lockSet 53 true) .ready 0, onLoop] boot
    s.lif.loop = .sending ∧ s.carries [tx .lock 53 (.lockSet 53 true) .ready 0] onLoop [] ∧ onLoop.dest ≠ 0 := by
  unfold State.carries; decide +kernel

/-- The fifth BUSY retry and the second empty-slot retry are still given. -/
theorem witness_RetriesKeepTheItemInItsPlace :
    let it := { onLoop with busyRetries := 4, emptyRetries := 1 }
    let s := withTx .awaiting [it, tx .lock 53 (.lockSet 53 true) .ready 2] boot
    let w := { onLoop with state := .waiting 0 }
    s.lif.loop = .awaiting ∧ s.carries [] it [tx .lock 53 (.lockSet 53 true) .ready 2] ∧ it.busyRetries < 5
      ∧ it.emptyRetries < 2 ∧ (0x00#8 : Byte) ≠ 0x4B#8 ∧ (0x00#8 : Byte) ≠ 0xB4#8
      ∧ (withTx .quiet [w] boot).lif.txq = [] ++ w :: [] ∧ w.state = .waiting 0 ∧ onLoop.state ≠ .waiting 0
      ∧ (∀ x ∈ ([] : List TxItem) ++ [], x.arrival ≠ w.arrival) := by
  unfold State.carries; decide +kernel

/-- A RESULT with none and with five BUSY retries, the ALERT, and an item with both empty-slot retries used. -/
theorem witness_EndedItemsLeaveTheQueue :
    let r := tx .display 88 (.result .h0) .onLoop 0
    let r5 := { r with busyRetries := 5 }
    let al := tx .fire 0 .alert .onLoop 0
    let e2 := { onLoop with emptyRetries := 2 }
    let s (l : LoopState) (it : TxItem) := withTx l [it] (withNodes [(40, node .dehumidifier 2)] boot)
    (s .awaiting r).carries [] r [] ∧ (s .awaiting r).nothingPending ∧ (s .awaiting r).lif.loop = .awaiting
      ∧ r.origin = .result .h0 ∧ (s .awaiting r5).carries [] r5 [] ∧ 5 ≤ r5.busyRetries ∧ (s .sending al).carries [] al []
      ∧ (s .sending al).lif.loop = .sending ∧ al.dest = 0 ∧ al.origin = .alert ∧ (s .awaiting e2).carries [] e2 []
      ∧ (s .awaiting e2).arrivalsRising = true ∧ 2 ≤ e2.emptyRetries ∧ (s .awaiting e2).node 40 = some (node .dehumidifier 2)
      ∧ (s .awaiting e2).nothingPending := by
  unfold State.carries State.nothingPending; decide +kernel

/-- A pending ALERT; a pending lock behind one that is not; a queue of 24 with a DISPLAY item to give way and none on a
queue of 23. -/
theorem witness_QueuePlacesAreGivenByClass :
    let r := tx .display 88 (.result .h0) .onLoop 0
    let s := withTx .awaiting [r] boot
    let p : State := { s with fz := { s.fz with pendingAlert := true } }
    let q : State := { s with la := { locks := [(52, lock), (53, { lock with send := .pending })] } }
    p.lif.loop = .awaiting ∧ p.carries [] r [] ∧ r.origin = .result .h0 ∧ p.fz.pendingAlert = true
      ∧ q.carries [] r [] ∧ q.fz.pendingAlert = false ∧ (∀ z < 16, (q.fire z).pendingRelease = false)
      ∧ q.la.locks = [(52, lock)] ++ (53, { lock with send := .pending }) :: []
      ∧ (∀ x ∈ [(52, lock)], x.2.send ≠ .pending ∧ x.1 ≠ 53) ∧ ({ lock with send := .pending } : Lock).send = .pending
      ∧ 24 ≤ fullQueue.lif.txq.length ∧ TxClass.display = .display
      ∧ (let pre := fullQueue.lif.txq.take 23
         let v := tx .display 61 (.result .h0) .ready 23
         fullQueue.lif.txq = pre ++ v :: [] ∧ v.state ≠ .onLoop ∧ v.cls.rank < TxClass.rank .fire
           ∧ (∀ x ∈ pre, x.state ≠ .onLoop → v.cls.rank ≤ x.cls.rank) ∧ (∀ x ∈ pre ++ [], x.arrival ≠ v.arrival)
           ∧ (withTx .quiet pre boot).lif.txq.length < 24) := by
  unfold State.carries; decide +kernel

theorem witness_RingHeadsLeaveInOrder :
    let it := item 61 .pickDisplay 0x20#8 []
    (withRing [it] boot).lif.ring = it :: [] ∧ dispatches it.cls it.kind = false
      ∧ (withRing [item 26 .slotStrip 0x20#8 []] boot).node 26 = none
      ∧ (withRing [item 26 .slotStrip 0x20#8 []] { boot with ti := { boot.ti with
          inHand := some (.catalogueClear (dir [0x12#8, 5#8, 0xFA#8])) } }).catBusy = true := by decide +kernel

theorem witness_IntervalExpiryStepsTheSupervision :
    let s := withNodes [(1, { node .probe 2 with timer := some 0 }), (5, node .probe 2), (126, { node .probe 2 with sup := .suspect, timer := some 0 })] boot
    s.node 1 = some { node .probe 2 with timer := some 0 } ∧ (node .probe 2).sup = .ok ∧ s.node 5 = some (node .probe 2)
      ∧ (node .probe 2).timer ≠ some 0
      ∧ s.node 126 = some { node .probe 2 with sup := .suspect, timer := some 0 } := by decide +kernel

theorem witness_TroubleAndStatusAreNoted :
    let d := { node .detector 2 with lastSeq := some 0#8 }
    let s := withRing [item 31 .detector 0x12#8 []] (withNodes [(31, d)] boot)
    let t (p : List Byte) := withRing [item 5 .probe 0x01#8 p] (withNodes [(5, node .probe 2)] boot)
    s.offers (item 31 .detector 0x12#8 []) 0x12#8 d ∧ d.cls = .detector ∧ d.lastSeq = some (item 31 .detector 0x12#8 []).seq
      ∧ d.sup ≠ .fault ∧ ({ d with lastSeq := some 1#8 } : NodeEntry).lastSeq ≠ some 0#8
      ∧ (t [7#8]).offers (item 5 .probe 0x01#8 [7#8]) 0x01#8 (node .probe 2)
      ∧ (t []).offers (item 5 .probe 0x01#8 []) 0x01#8 (node .probe 2) ∧ ([] : List Byte).length ≠ 1 := by
  unfold State.offers; decide +kernel

/-- Line 15 of zone 15 UNUSED, line 4 an abort of zone 3, and a line without an entry. -/
theorem witness_SettleTimersMakeTheEdges :
    let s := zone3 (abortLine .high (some 0)) (abortLine .high none) .low .high .resume
    let u : LineEntry := { abortLine .low (some 0) with function := .unused, zone := 15 }
    let w : State := { boot with lu := { boot.lu with lines := [(15, u)] }, zt := { boot.zt with zones := [(15, storage none)] } }
    s.lu.raw[15]? = some .low ∧ Table.get s.lu.lines 15 = none ∧ s.lu.raw[4]? = some .low
      ∧ Table.get s.lu.lines 4 = some (abortLine .high (some 0)) ∧ s.shaped = true
      ∧ (s.zone 3).isSome = true ∧ s.conditions 3 = s.computeConditions 3 ∧ s.lu.raw.getD 4 .high = (abortLine .high none).active
      ∧ (s.conditions 3).abort = false ∧ (s.fire 3).state = .countdown
      ∧ w.shaped = true ∧ Table.get w.lu.lines 15 = some u ∧ u.timer = some 0 ∧ (abortLine .high none).timer ≠ some 0 ∧ w.zone u.zone = some (storage none)
      ∧ u.zone < 16 ∧ w.conditions u.zone = w.computeConditions u.zone ∧ u.function = .unused := by decide +kernel

/-- A taken sample of 52.0 %RH and 20.0 degrees in zone 15, UNSET, and one past its range. -/
theorem witness_SampleStepsTheClimate :
    let p := [0x08#8, 0x02#8, 0xC8#8, 0x00#8]
    let s := withRing [item 12 .probe 0x02#8 p] (withZones [(15, storage none)] (withNodes [(12, node .probe 15)] boot))
    s.shaped = true ∧ s.offers (item 12 .probe 0x02#8 p) 0x02#8 (node .probe 15) ∧ (node .probe 15).cls = .probe
      ∧ (node .probe 15).zone < 16 ∧ s.climateGroup 15 = some climate2 ∧ parseSample p = some (520, 200)
      ∧ parseSample [0xFF#8, 0xFF#8, 0x00#8, 0x80#8] = some (-1, -32768) := by
  unfold State.offers; decide +kernel

/-- Accumulators at both ends of their ranges. -/
theorem witness_FilterStaysInRange :
    1 ≤ climate2.k ∧ climate2.k ≤ 16
      ∧ (∀ c ∈ [{ Climate.empty with acc := 0, accT := -6400 }, { Climate.empty with acc := 16000, accT := 13600 }],
          0 ≤ c.acc ∧ c.acc ≤ 16000 ∧ -6400 ≤ c.accT ∧ c.accT ≤ 13600) := by decide +kernel

theorem witness_EpochsAreHeldAndZonesGoStale :
    let s : State := atEpoch { zone2 with ti := { zone2.ti with inHand := some (.catalogueClear (dir [0x12#8, 5#8, 0xFA#8])) } }
    let z := zone2.setClimate 2 { zone2.climate 2 with stale := some 0 }
    (atEpoch zone2).cu.epochTimer = 0 ∧ zone2.cu.epochTimer ≠ 0 ∧ (atEpoch zone2).catBusy = false ∧ s.cu.epochTimer = 0
      ∧ s.catBusy = true ∧ z.shaped = true ∧ (z.climate 2).stale = some 0
      ∧ (zone2.climate 2).stale ≠ some 0 := by
  decide +kernel

theorem witness_AcclimatizationRequirement :
    let s := staging9 186 .inBand 120 25
    s.zone 9 = some { storage none with kind := .staging, staging := some { amin := 120, rate := 25 } }
      ∧ (s.climate 9).fT = some 186 ∧ (s.climate 9).status ≠ .unset ∧ (s.climate 9).status ≠ .stale
      ∧ ((staging9 186 .stale 120 25).climate 9).status = .stale := by decide +kernel

theorem witness_PlantTimersFollowTheDemand :
    let run := dry40 .running (.running 0) none
    let rest := dry40 .rest .stopped (some 0)
    (plant2 run .dry).actuator 2 .dry = some run ∧ (plant2 run .dry).lif.txq.length < 24 ∧ run.run = .running 0
      ∧ (plant2 run .dry).demandPresent 2 .dry = true ∧ run.state = .running ∧ (plant2 run .none).plantDecides 2 = true
      ∧ (plant2 run .none).demandPresent 2 .dry = false ∧ (plant2 run .none).attached run = true
      ∧ (plant2 rest .none).actuator 2 .dry = some rest ∧ rest.rest = some 0 ∧ (plant2 rest .none).demandPresent 2 .dry = false
      ∧ (plant2 rest .dry).plantDecides 2 = true ∧ (plant2 rest .dry).demandPresent 2 .dry = true
      ∧ (plant2 rest .dry).attached rest = true
      ∧ rest.run ≠ .running 0 ∧ run.rest ≠ some 0 := by decide +kernel

/-- Detector 31 of zone 15 without a release line; a restore in a zone with an entry and in one without. -/
theorem witness_DetectorsMoveTheFireState :
    let e := node .detector 15
    let s := withRing [item 31 .detector 0x10#8 []] (withZones [(15, storage none)] (withNodes [(31, e)] boot))
    let r := withRing [item 31 .detector 0x11#8 []] (withZones [(15, storage none)] (withNodes [(31, e)] boot))
    let n := withRing [item 31 .detector 0x11#8 []] (withNodes [(31, e)] boot)
    s.shaped = true ∧ s.offers (item 31 .detector 0x10#8 []) 0x10#8 e ∧ e.cls = .detector ∧ e.zone < 16
      ∧ s.zone e.zone = some (storage none) ∧ (storage none).fire.line = none
      ∧ r.offers (item 31 .detector 0x11#8 []) 0x11#8 e ∧ r.zone e.zone = some (storage none)
      ∧ n.offers (item 31 .detector 0x11#8 []) 0x11#8 e ∧ n.zone e.zone = none := by
  unfold State.offers; decide +kernel

/-- Zone 3 of 6.12: the check passes; without the contact it fails; under an abort; and HELD with the abort released. -/
theorem witness_CountdownIsLoadedAndResumed :
    let s := fire3 Fire.initial
    let at3 (c : Conditions) : State := { s with lu := { s.lu with conditions := s.lu.conditions.set 3 c } }
    let h := fire3 { Fire.initial with state := .held, remaining := some 180 }
    s.shaped = true ∧ (s.zone 3).map (·.fire.line) = some (some 2) ∧ (s.conditions 3).discharge = true
      ∧ (s.conditions 3).abort = false
      ∧ ((at3 { Conditions.inactive with discharge := true, abort := true }).conditions 3).abort = true
      ∧ (s.zone 3).map (·.fire.checkLine) = some (some 6) ∧ ((at3 Conditions.inactive).conditions 3).discharge = false
      ∧ h.shaped = true ∧ (h.fire 3).state = .held ∧ (h.conditions 3).abort = false := by decide +kernel

theorem witness_ExpiryReleasesTheAgent :
    let s := fire3 { Fire.initial with state := .countdown, remaining := some 0 }
    s.shaped = true ∧ (s.zone 3).isSome = true ∧ (s.fire 3).state = .countdown ∧ (s.suppressionNode 3).isSome = true := by
  decide +kernel

/-- FIRE_RESET of zone 3 in each state, and of zone 15. -/
theorem witness_FireResetReturnsTheZone :
    let s (f : FireState) (a : List Nat) := told [0x30#8, 3#8] (fire3 { Fire.initial with state := f, alarm := a })
    (s .normal []).shaped = true ∧ (s .normal []).hasTakenVerified (dir [0x30#8, 3#8]) ∧ ((3#8 : Byte).toNat ≤ 15)
      ∧ ((s .normal []).fire 3).state = .normal ∧ ((s .isolated []).fire 3).state = .isolated
      ∧ ((s .held []).fire 3).state = .held ∧ ((s .released [22]).fire 3).alarm ≠ []
      ∧ ((s .released []).fire 3).state = .released ∧ ((s .released []).fire 3).alarm = []
      ∧ ((s .released []).conditions 3).panel = false
      ∧ (told [0x30#8, 15#8] boot).hasTakenVerified (dir [0x30#8, 15#8]) ∧ (15#8 : Byte).toNat ≤ 15 := by
  decide +kernel

theorem witness_IsolateAndRestoreMoveTheZone :
    let s (f : FireState) (a : List Nat) (c : Byte) := told [c, 3#8] (fire3 { Fire.initial with state := f, alarm := a })
    (s .preAlarm [21] 0x31#8).shaped = true ∧ (s .preAlarm [21] 0x31#8).hasTakenVerified (dir [0x31#8, 3#8])
      ∧ ((s .preAlarm [21] 0x31#8).zone 3).isSome = true ∧ ((s .preAlarm [21] 0x31#8).fire 3).state = .preAlarm
      ∧ ((s .held [] 0x31#8).fire 3).state = .held
      ∧ (s .isolated [] 0x32#8).hasTakenVerified (dir [0x32#8, 3#8]) ∧ ((s .isolated [] 0x32#8).fire 3).alarm = []
      ∧ ((s .isolated [] 0x32#8).conditions 3).panel = false ∧ ((s .isolated [] 0x32#8).conditions 3).manual = false
      ∧ ((s .isolated [21] 0x32#8).fire 3).alarm = 21 :: [] ∧ 2 ≤ (s .isolated [21] 0x32#8).healthy 3 := by
  decide +kernel

/-- A first claim of an idle lock, the same while a LOCK_SET is in flight, and a claim that changes nothing. -/
theorem witness_ClaimsDecideTheCommandedState :
    let s (l : Lock) : State := { boot with la := { locks := [(52, l)] } }
    (s lock).lock 52 = some lock ∧ (s lock).lif.txq.length < 24 ∧ lock.send = .idle ∧ lock.commanded = .locked
      ∧ ({ lock.claims with handover0 := true } : Claims).fireHold = false
      ∧ (s { lock with send := .inFlight }).lock 52 = some { lock with send := .inFlight }
      ∧ ({ lock with send := .inFlight } : Lock).send ≠ .idle := by decide +kernel

/-- Durations 1 and 300 are in range, 301 is not; a lock, no lock, and a held one; a claim that runs. -/
theorem witness_MaintenanceClaimRunsItsTime :
    let s (b d0 d1 : Byte) := told [0x33#8, b, d0, d1] held52
    let m : Lock := { lock with claims := { lock.claims with maintenance := some 0 } }
    (s 52#8 1#8 0#8).hasTakenVerified (dir [0x33#8, 52#8, 1#8, 0#8]) ∧ addressInRange 52 = true
      ∧ (0x2D#8 : Byte).toNat + 256 * (1#8 : Byte).toNat = 301 ∧ (0x2C#8 : Byte).toNat + 256 * (1#8 : Byte).toNat = 300
      ∧ addressInRange 127 = false ∧ (s 9#8 1#8 0#8).lock 9 = none
      ∧ ((s 52#8 1#8 0#8).lock 52).map (·.claims.fireHold) = some true
      ∧ (told [0x33#8, 52#8, 1#8, 0#8] { boot with la := { locks := [(52, lock)] } }).lock 52 = some lock
      ∧ lock.claims.fireHold = false
      ∧ ({ boot with la := { locks := [(52, m)] } } : State).lock 52 = some m ∧ m.claims.maintenance = some 0
      ∧ lock.claims.maintenance ≠ some 0 := by
  decide +kernel

theorem witness_DoorReportsMoveTheDoor :
    let it := item 53 .lock 0x30#8 [0x01#8]
    let s := withRing [it] ({ withNodes [(53, node .lock 3)] boot with la := { locks := [(53, lock)] } })
    let l : Lock := { lock with door := .opened, doorTimer := some 0 }
    s.offers it 0x30#8 (node .lock 3) ∧ s.lock 53 = some lock ∧ s.hatchOfLock 53 = none ∧ it.payload = [0x01#8]
      ∧ lock.door ≠ .opened ∧ l.door ≠ .closed ∧ l.doorTimer = some 0 ∧ lock.doorTimer ≠ some 0 ∧ l.heldMark = false
      ∧ ({ boot with la := { locks := [(53, l)] } } : State).lock 53 = some l := by
  unfold State.offers; decide +kernel

/-- The two cartridges of 7.2 in their states, a foreign label, a misfile and a payload in no form. -/
theorem witness_SlotEventsFollowTheCartridge :
    let it (p : List Byte) := item 26 .slotStrip 0x20#8 p
    let s (p : List Byte) (st : CartState) := withRing [it p] (shelf st .released)
    (s [2#8, 1#8] .shelved).catBusy = false ∧ (s [2#8, 1#8] .shelved).offers (it [2#8, 1#8]) 0x20#8 (node .slotStrip 2)
      ∧ (node .slotStrip 2).slotBase = some 128 ∧ parseSlotEvent [2#8, 1#8] = some (.emptied 2)
      ∧ (s [2#8, 1#8] .shelved).indexOfSlot 2 (128 + 2) = some 417
      ∧ ((s [2#8, 1#8] .shelved).cartridge 417).map (·.state) = some .shelved
      ∧ ((s [2#8, 1#8] .ordered).cartridge 417).map (fun c => (c.state, c.order)) = some (.ordered, some 311)
      ∧ ((s [2#8, 1#8] .missing).cartridge 417).map (·.state) = some .missing
      ∧ parseSlotEvent [63#8, 1#8] = some (.emptied 63) ∧ (s [63#8, 1#8] .shelved).indexOfSlot 2 (128 + 63) = none
      ∧ parseSlotEvent ([5#8, 2#8] ++ arc417) = some (.occupied 5 arc417)
      ∧ (s [] .shelved).indexOfLabel arc417 = some 417 ∧ (s [] .shelved).indexOfLabel (label 0x39#8 0x39#8) = none
      ∧ parseSlotEvent [64#8, 1#8] = none := by
  unfold State.offers; decide +kernel

theorem witness_CatalogueWorkCompletes :
    let d := dir [0x12#8, 5#8, 0xFA#8]
    let clear (s : State) : State := { s with ti := { s.ti with inHand := some (.catalogueClear d) } }
    let e : List Byte := arc417 ++ [2#8, 130#8, 0#8, 0#8] ++ List.replicate 12 0#8
    let load : State := { boot with ti := { boot.ti with inHand := some (.catalogueLoad d 417 1 e) } }
    (clear archive).cu.epochs = [] ∧ (clear archive).ti.inHand = some (.catalogueClear d)
      ∧ (∃ p ∈ (clear archive).cat.cartridges, p.2.inMotion = true)
      ∧ (∀ p ∈ (clear { boot with cat := { cartridges := [(417, cart arc417 130 .shelved)] } }).cat.cartridges,
          p.2.inMotion = false)
      ∧ load.ti.inHand = some (.catalogueLoad d 417 1 e)
      ∧ (∃ s1, State.loadEntries .catalogue 417 0 (cutEntries 24 1 e) load.dropHand = .ok s1 ∧ s1.cu.epochs = []) := by
  refine ⟨by decide +kernel, by decide +kernel, by decide +kernel, by decide +kernel, by decide +kernel, _, rfl, rfl⟩

theorem witness_ReleaseQuarantinesTheZone :
    let s : State := { boot with cat := { cartridges := [(1, cart arc417 130 .shelved), (2, { cart arc420 133 .staging with staging := some 9, acclim := some 1 }),
      (3, cart (label 0x39#8 0x39#8) 9 .missing)] } }
    Table.wf s.cat.cartridges = true ∧ s.cartridge 1 = some (cart arc417 130 .shelved)
      ∧ (cart arc417 130 .shelved).homeZone = 2 ∧ (cart arc417 130 .shelved).order = none
      ∧ (s.cartridge 2).map (fun c => (c.state, c.staging, c.order)) = some (.staging, some 9, none)
      ∧ (s.cartridge 3).map (·.state) = some .missing := by decide +kernel

theorem witness_InspectClearReturnsToCirculation :
    let s (l : Label) (st : CartState) := told (0x22#8 :: l) ({ boot with cat := { cartridges := [(417, cart arc417 130 st)] } })
    (s arc417 .shelved).hasTakenVerified (dir (0x22#8 :: arc417)) ∧ arc417.length = 8 ∧ labelOk arc417 = true
      ∧ (s arc417 .shelved).indexOfLabel arc417 = some 417 ∧ (s arc417 .shelved).cartridge 417 = some (cart arc417 130 .shelved)
      ∧ (s arc417 .away).cartridge 417 = some (cart arc417 130 .away) ∧ (s arc420 .shelved).indexOfLabel arc420 = none
      ∧ labelOk (label 0x20#8 0x31#8) = false := by
  decide +kernel

theorem witness_OrderIsAcceptedOrRefused :
    let b := 0x20#8 :: arc417 ++ [0x9D#8, 0x13#8]
    let s := told b (ordering [])
    let r := told b { ordering [] with zt := { (ordering []).zt with site := none } }
    s.hasTakenVerified (dir b) ∧ s.judgeOrder arc417 5021 = none ∧ s.indexOfLabel arc417 = some 417
      ∧ s.cartridge 417 = some (cart arc417 130 .shelved) ∧ s.zone 2 = some (storage none)
      ∧ (storage none).fire.display = none ∧ s.order s.newNumber = none ∧ r.judgeOrder arc417 5021 = some .badState := by
  decide +kernel

theorem witness_CancelTakesTheOrderOut :
    let s (n0 n1 : Byte) (st : OrderState) := told [0x21#8, n0, n1] (shelf .ordered st)
    (s 0x37#8 1#8 .released).hasTakenVerified (dir [0x21#8, 0x37#8, 1#8])
      ∧ (0x37#8 : Byte).toNat + 256 * (1#8 : Byte).toNat = 311 ∧ (s 0x37#8 1#8 .released).order 311 = some (order311 .released)
      ∧ ((s 0x37#8 1#8 .released).cartridge 417).isSome = true
      ∧ (s 0x37#8 1#8 .manifested).order 311 = some (order311 .manifested) ∧ (s 1#8 0#8 .released).order 1 = none := by
  decide +kernel

/-- The courier's badge of 9.12, and the state without a fire, with the parties that are refused. -/
theorem witness_CourierBadgeIsDecidedInOrder :
    let p := [0x9D#8, 0x13#8, 1#8, 0x3A#8, 0x11#8, 0#8, 0x80#8]
    let b : CourierBadge := { id := 5021, direction := .out, caseTag := some 4410, caseTemp := none }
    let g : HandoverGroup := { hatch := .h0, lock := 52, staging := 9 }
    let it := item 90 .courierTerminal 0x40#8 p
    let s := withRing [it] (hatch0 Engine.idle)
    (∃ e, s.offers it 0x40#8 e ∧ e.cls = .courierTerminal ∧ e.hatch = some .h0 ∧ s.hatchZone .h0 = some (14, g) ∧ e.zone = 14)
      ∧ parseCourierBadge p = some b ∧ s.fz.fireActive = false ∧ (s.fire 14).state ≠ .confirmed
      ∧ s.party 5021 = some party5021 ∧ party5021.courier = some courier5021 ∧ party5021.active = true
      ∧ courier5021.outbound = true ∧ s.ti.clockSet = true ∧ (s.ti.clock / 60) % 1440 = 600
      ∧ courier5021.windowStart ≤ 600 ∧ 600 ≤ courier5021.windowStop ∧ s.lock g.lock = some lock
      ∧ s.courierVerdict .h0 b = .accepted ∧ s.party 1 = none ∧ (s.party 7003).map (·.courier) = some none
      ∧ ({ s with he0 := exchange .opened [] } : State).courierVerdict .h0 b = .accepted
      ∧ (s.engine .h0).state = .idle ∧ s.courierVerdict .h0 { b with id := 1 } ≠ .accepted := by
  refine ⟨⟨terminal .courierTerminal 14 .h0, ?_⟩, ?_⟩
  · unfold State.offers; decide +kernel
  · decide +kernel

theorem witness_OperatorBadgeJoinsTheExchange :
    let it := item 88 .hatchReader 0x40#8 [0x5B#8, 0x1B#8]
    let g : HandoverGroup := { hatch := .h0, lock := 52, staging := 9 }
    let s := withRing [it] (hatch0 { exchange .opened [] with operator := none })
    s.offersTerminal it 0x40#8 .h0 .reader 14 g ∧ parseReaderBadge it.payload = some 7003
      ∧ (s.engine .h0).state = .opened ∧ (s.party 7003).map (fun p => (p.courier.isSome, p.active)) = some (false, true)
      ∧ (s.party 5021).map (·.courier.isSome) = some true ∧ s.party 9 = none
      ∧ ((withRing [it] (hatch0 Engine.idle)).engine .h0).state ≠ .opened := by
  refine ⟨?_, by decide +kernel⟩
  exact ⟨terminal .hatchReader 14 .h0, by unfold State.offers; decide +kernel⟩

/-- SCAN with a list of 47 places used, FOREIGN, in INTAKE; CLOSE of an empty and of a filled list, and of an intake. -/
theorem witness_ScansFillTheListAndCloseEndsIt :
    let it := item 88 .hatchReader 0x41#8 arc417
    let cl := item 88 .hatchReader 0x42#8 []
    let g : HandoverGroup := { hatch := .h0, lock := 52, staging := 9 }
    let s (it : RingItem) (st : EngineState) (l : List Nat) := withRing [it] (hatch0 (exchange st l))
    let l47 := (List.range 47).map (· + 1000)
    (s it .scanning l47).offersTerminal it 0x41#8 .h0 .reader 14 g
      ∧ (s cl .scanning []).offersTerminal cl 0x42#8 .h0 .reader 14 g
      ∧ it.payload.length = 8 ∧ cl.payload = [] ∧ ((s it .scanning l47).engine .h0).state = .scanning
      ∧ (s it .scanning l47).indexOfLabel arc417 = some 417
      ∧ ((s it .scanning l47).cartridge 417).map (fun c => (c.state, c.order, c.flagged)) = some (.picked, some 311, false)
      ∧ 417 ∉ l47 ∧ l47.length < 48 ∧ (s it .scanning l47).order 311 = some (order311 .picked)
      ∧ some (order311 .picked).courier = (exchange .scanning []).courier
      ∧ (s it .scanning []).indexOfLabel arc420 = none ∧ ((s it .intake []).engine .h0).state = .intake
      ∧ ((s cl .scanning []).engine .h0).list = [] ∧ ((s cl .scanning [417]).engine .h0).list ≠ []
      ∧ ((s cl .release []).engine .h0).state = .release
      ∧ (let away : State := { s it .intake [] with cat := { cartridges := [(417, { cart arc417 130 .away with courier := some 5021 })] } }
         away.indexOfLabel arc417 = some 417 ∧ (away.cartridge 417).map (·.state) = some .away) := by
  refine ⟨?_, ?_, by decide +kernel⟩
  · exact ⟨terminal .hatchReader 14 .h0, by unfold State.offers; decide +kernel⟩
  · exact ⟨terminal .hatchReader 14 .h0, by unfold State.offers; decide +kernel⟩

/-- The first CONFIRM, the same side's again, the other side's with the lock's record and without it. -/
theorem witness_TwoConfirmationsOpenTheHatch :
    let it := item 90 .courierTerminal 0x43#8 []
    let g : HandoverGroup := { hatch := .h0, lock := 52, staging := 9 }
    let s (f : Option Side) := withRing [it] (hatch0 { exchange .confirm [417] with first := f })
    (∀ f, (s f).offersTerminal it 0x43#8 .h0 .courier 14 g ∧ ((s f).engine .h0).state = .confirm ∧ ((s f).engine .h0).first = f)
      ∧ it.payload = [] ∧ Side.reader ≠ .courier ∧ (s (some .reader)).lock 52 = some lock
      ∧ ({ s (some .reader) with la := { locks := [] } } : State).lock 52 = none
      ∧ ((withRing [it] (hatch0 (exchange .scanning []))).engine .h0).state ≠ .confirm := by
  refine ⟨fun f => ⟨⟨terminal .courierTerminal 14 .h0, ⟨rfl, rfl, rfl, rfl⟩, rfl, rfl, rfl, rfl⟩, rfl, rfl⟩, by decide +kernel⟩

theorem witness_ExchangesEndIdle :
    let it := item 90 .courierTerminal 0x44#8 []
    let g : HandoverGroup := { hatch := .h0, lock := 52, staging := 9 }
    let s (e : Engine) := withRing [it] (hatch0 e)
    let r := { exchange .release [417] with openTimer := none, unlockTimer := some 0 }
    (∀ e, (s e).offersTerminal it 0x44#8 .h0 .courier 14 g) ∧ it.payload = []
      ∧ ((s (exchange .scanning [])).engine .h0).state = .scanning ∧ ((s r).engine .h0).state = .release
      ∧ ((s r).engine .h0).doorOpened = false ∧ ((s (exchange .intake [])).engine .h0).state = .intake
      ∧ ((s { exchange .opened [] with openTimer := some 0 }).engine .h0).openTimer = some 0 ∧ ((s r).engine .h0).unlockTimer = some 0
      ∧ ({ exchange .intake [] with openTimer := none, intakeTimer := some 0 } : Engine).intakeTimer = some 0
      ∧ ({ exchange .confirm [] with first := some .reader, confirmTimer := some 0 } : Engine).confirmTimer = some 0
      ∧ Engine.idle.openTimer ≠ some 0 ∧ Engine.idle.unlockTimer ≠ some 0 ∧ Engine.idle.intakeTimer ≠ some 0
      ∧ Engine.idle.confirmTimer ≠ some 0 := by
  refine ⟨fun e => ⟨terminal .courierTerminal 14 .h0, ⟨rfl, rfl, rfl, rfl⟩, rfl, rfl, rfl, rfl⟩, by decide +kernel⟩

theorem witness_DoorCompletesTheExchange :
    let s (d : Direction) (o : Bool) := hatch0 { exchange .release [] with direction := some d, doorOpened := o, openTimer := none }
    ((s .out false).engine .h0).state = .release
      ∧ (s .out false).hatchZone .h0 = some (14, { hatch := .h0, lock := 52, staging := 9 })
      ∧ ((s .out false).engine .h0).doorOpened = false ∧ ((s .out true).engine .h0).doorOpened = true
      ∧ ((s .out true).engine .h0).direction = some .out ∧ ((s .inward true).engine .h0).direction = some .inward
      ∧ (s .inward true).fz.fireActive = false ∧ ((s .inward true).fire 14).state ≠ .confirmed := by decide +kernel

theorem witness_OutboundCommitHandsOut :
    let c := { cart arc417 130 .manifested with order := some 311, hatch := some .h0 }
    let h := hatch0 { exchange .release [417] with doorOpened := true, openTimer := none }
    let s : State := { h with cat := { cartridges := [(417, c)] }, ol := { orders := [order311 .manifested], lastNumber := 311 } }
    (s.engine .h0).list = [417] ∧ (s.engine .h0).courier = some 5021 ∧ s.cartridge 417 = some c ∧ c.order = some 311
      ∧ s.ol.orders = [order311 .manifested] ∧ (order311 .manifested).number = 311 ∧ (order311 .manifested).courier = 5021
      ∧ (order311 .manifested).state = .manifested ∧ (order311 .manifested).pick = .notSent ∧ s.partyKey 5021 = some 0
      ∧ Table.get s.pt.parties 0 = some party5021 ∧ party5021.id = 5021 ∧ party5021.courier = some courier5021
      ∧ Table.wf s.pt.parties = true := by decide +kernel

/-- An ingress of 3 and of 4, replies of 6 and of 7, a bad check, another kind, and gaps of 9 and 10. -/
theorem witness_FramesArriveOrAreDiscarded :
    let f := frame 0x01#8 [0x04#8]
    let s (i r : Nat) : State := { boot with ti := { boot.ti with
      ingress := List.replicate i (dir []),
      replies := List.replicate r { tag := 0#16, code := 1#8, result := .ok, body := .empty, restarts := false } } }
    let t : State := { boot with ti := { boot.ti with frameTail := true } }
    (s 3 0).ti.carrier = true ∧ (s 3 0).ti.frameTail = false ∧ f.body.length ≤ 600 ∧ frameCheckMatches f = true
      ∧ f.kind = 0x01#8 ∧ (s 3 0).ti.ingress.length < 4 ∧ 4 ≤ (s 4 6).ti.ingress.length ∧ (s 4 6).ti.replies.length < 7
      ∧ 4 ≤ (s 4 7).ti.ingress.length ∧ 7 ≤ (s 4 7).ti.replies.length ∧ frameCheckMatches { f with check := 0#16 } = false
      ∧ (frame 0x02#8 []).kind ≠ 0x01#8 ∧ t.ti.frameTail = true ∧ ({ f with gap := 9 } : Frame).gap < 10 := by decide +kernel

theorem witness_RepliesGoBeforeNotices :
    let r : Reply := { tag := 0#16, code := 0x50#8, result := .ok, body := .empty, restarts := true }
    let s (l : List Reply) (x : Option Sending) : State := { boot with ti := { boot.ti with replies := l, sending := x } }
    (s [r] none).ti.carrier = true ∧ (s [r] none).ti.sending = none ∧ (s [r] none).ti.replies = r :: []
      ∧ (s [] none).ti.replies = [] ∧ boot.ti.notices ≠ []
      ∧ (s [] (some (.notice (notice 3 1#16)))).ti.sending = some (.notice (notice 3 1#16))
      ∧ (s [r] (some (.reply r))).ti.sending = some (.reply r) ∧ r.restarts = true
      ∧ ({ r with restarts := false } : Reply).restarts = false := by decide +kernel

theorem witness_CarrierLossEndsTheSession : boot.ti.carrier = true := rfl

/-- 31 notices with room; 32 with a class below and with none below. -/
theorem witness_NoticesKeepTheirOrder :
    let s31 : State := { boot with ti := { boot.ti with notices := fireQueue.ti.notices.take 31 } }
    let s3 : State := { boot with ti := { boot.ti with notices := List.replicate 32 (notice 3 1#16) } }
    let fs : Nat := boot.noticeClass (noticeKind (.fireState 3 .normal .preAlarm .detAlarm none none false false 1 1))
    s31.ti.notices.length < 32 ∧ s31.ti.notices = s31.ti.notices.take 4 ++ s31.ti.notices.drop 4
      ∧ (∀ x ∈ s31.ti.notices.take 4, fs ≤ x.cls) ∧ (∀ x ∈ s31.ti.notices.drop 4, x.cls < fs)
      ∧ fireQueue.ti.notices = fireQueue.ti.notices.take 4 ++ (fireQueue.ti.notices.drop 4).dropLast ++ [notice 0 3#16]
      ∧ 32 ≤ fireQueue.ti.notices.length ∧ (notice 0 3#16).cls < fs
      ∧ (∀ x ∈ fireQueue.ti.notices.take 4, fs ≤ x.cls) ∧ (∀ x ∈ (fireQueue.ti.notices.drop 4).dropLast, x.cls < fs)
      ∧ s3.ti.notices = List.replicate 31 (notice 3 1#16) ++ [notice 3 1#16] ∧ 32 ≤ s3.ti.notices.length
      ∧ fs ≤ (notice 3 1#16).cls := by decide +kernel

theorem witness_UnverifiedDirectivesAreRefused :
    let s : State := { boot with ti := { boot.ti with inHand := some (.deciding (dir [0x03#8]) (reading false boot.cs)), restartArmed := true } }
    s.underDecision = some (dir [0x03#8], false) ∧ (dir [0x03#8]).body.head? = some 0x03#8 := by
  decide +kernel

/-- A blank store and one that is not at the taking; a right and a wrong code; a code write that can start and one that runs. -/
theorem witness_CodeIsCheckedAndWritten :
    let code := [1#8, 2#8, 3#8, 4#8, 5#8, 6#8]
    let held : Cs := { code := [9#8, 2#8, 3#8, 4#8, 5#8, 6#8], checkOk := true, writing := none }
    let s (h : Cs) (c : List Byte) : State :=
      { boot with ti := { boot.ti with inHand := some (.deciding (dir (0x02#8 :: c)) (reading false h)) } }
    let v (w : Option (List Byte)) := told (0x03#8 :: code) { boot with cs := { held with writing := w } }
    code.length = 6 ∧ boot.cs.code.length = 6 ∧ held.code.length = 6
      ∧ (s boot.cs code).ti.inHand = some (.deciding (dir (0x02#8 :: code)) (reading false boot.cs))
      ∧ boot.cs.code = [0#8, 0#8, 0#8, 0#8, 0#8, 0#8]
      ∧ (s held code).ti.inHand = some (.deciding (dir (0x02#8 :: code)) (reading false held))
      ∧ ¬ (held.checkOk = false ∨ held.code = [0#8, 0#8, 0#8, 0#8, 0#8, 0#8]) ∧ code ≠ held.code
      ∧ (s held held.code).ti.inHand = some (.deciding (dir (0x02#8 :: held.code)) (reading false held))
      ∧ (v none).hasTakenVerified (dir (0x03#8 :: code)) ∧ (v none).cs.writing = none
      ∧ (v (some code)).hasTakenVerified (dir (0x03#8 :: code)) ∧ (v (some code)).cs.writing = some code := by
  decide +kernel

theorem witness_StatusClockAndProtectionChange :
    (∀ b ∈ [[0x05#8], [0x06#8, 0xFF#8, 0xFF#8, 0xFF#8, 0xFF#8], [0x13#8, 1#8], [0x14#8, 6#8]],
      (told b boot).hasTakenVerified (dir b)) ∧ tableOf 1#8 = some .node ∧ tableOf 6#8 = some .party := by
  decide +kernel

/-- Index 125 is in the node table and 126 is not; an order's number held and not held. -/
theorem witness_ReadsAnswerAndChangeLittle :
    let s (b : List Byte) := told b (shelf .ordered .released)
    (s [0x11#8, 1#8, 125#8, 0#8]).hasTakenVerified (dir [0x11#8, 1#8, 125#8, 0#8]) ∧ 125 ≤ lastIndex .node
      ∧ lastIndex .node < 126 ∧ tableOf 1#8 = some .node ∧ tableOf 7#8 = none ∧ tableOf 8#8 = none ∧ (8#8 : Byte) ≠ 7#8
      ∧ (s []).order 0 = none ∧ (s []).order 311 = some (order311 .released)
      ∧ (s [0x01#8]).hasTaken (dir [0x01#8]) ∧ (s [0x41#8, 26#8]).hasTakenVerified (dir [0x41#8, 26#8])
      ∧ addressInRange 0 = false ∧ addressInRange 126 = true ∧ (s []).node 126 = none
      ∧ (s []).node 26 = some (node .slotStrip 2) := by
  decide +kernel

/-- The LINE segment of 11.2 well formed, applied, out of range and latched; a catalogue segment. -/
theorem witness_LoadSegmentIsAppliedWholeOrNotAtAll :
    let f := [4#8, 0#8, 1#8, 1#8, 1#8, 3#8, 0#8, 5#8, 0x0A#8, 0#8]
    let g : Segment := { first := 4, count := 1, entries := [1#8, 1#8, 3#8, 0#8, 5#8], checksum := 10 }
    let s := told (0x10#8 :: 4#8 :: f) boot
    let l : State := { s with ti := { s.ti with latch := true } }
    let bad := [4#8, 0#8, 1#8, 1#8, 1#8, 16#8, 0#8, 5#8, 23#8, 0#8]
    s.hasTakenVerified (dir (0x10#8 :: 4#8 :: f)) ∧ tableOf 4#8 = some .line ∧ parseSegment .line f = some g
      ∧ s.ti.latch = false ∧ s.judgeSegment .line g = none ∧ TableId.line ≠ .catalogue
      ∧ l.ti.latch = true ∧ l.judgeSegment .line g = some .latched ∧ s.judgeSegment .line { g with first := 16 } = some .range
      ∧ s.judgeSegment .catalogue g = none
      ∧ (∃ s2, State.loadEntries .line 4 0 (cutEntries 5 1 g.entries) (s.taken) = .ok s2)
      ∧ (parseSegment .line bad).isSome = true
      ∧ (∃ r, State.loadEntries .line 4 0 (cutEntries 5 1 [1#8, 1#8, 16#8, 0#8, 5#8]) (s.taken) = .error r) := by
  refine ⟨?_, by decide +kernel, by decide +kernel, by decide +kernel, by decide +kernel, by decide +kernel, by decide +kernel,
    by decide +kernel, by decide +kernel, by decide +kernel, ⟨_, rfl⟩, by decide +kernel, _, rfl⟩
  decide +kernel

theorem witness_ClearTableEmptiesTheTable :
    (∀ b ∈ [[0x12#8, 3#8, 0xFC#8], [0x12#8, 5#8, 0xFA#8], [0x12#8, 3#8, 0#8]], (told b boot).hasTakenVerified (dir b))
      ∧ boot.ti.latch = false ∧ tableOf 3#8 = some .site ∧ tableOf 5#8 = some .catalogue ∧ ~~~(3#8 : Byte) = 0xFC#8
      ∧ ~~~(5#8 : Byte) = 0xFA#8 ∧ boot.ti.protect.site = false ∧ boot.ti.protect.catalogue = false
      ∧ (boot.ti.protect.change .site true).of .site = true ∧ (0#8 : Byte) ≠ ~~~(3#8 : Byte) := by
  decide +kernel

/-- The directives of 2.9, the kinds 191 and 192, and queues of 0 and 24. -/
theorem witness_PassDownIsFilteredAndQueued :
    let b (d k : Byte) := [0x40#8, d, k, 0#8]
    let full := told (b 61#8 192#8) { passing with lif := fullQueue.lif }
    let s := told (b 61#8 192#8) passing
    let d := dir (b 61#8 192#8)
    s.ti.inHand = some (.deciding d { passing.reads d with verified := true })
      ∧ (told [0x40#8, 61#8] passing).hasTakenVerified (dir [0x40#8, 61#8]) ∧ ([61#8] : List Byte).length < 3
      ∧ (told [0x40#8, 61#8, 200#8, 2#8, 0#8] passing).hasTakenVerified (dir [0x40#8, 61#8, 200#8, 2#8, 0#8])
      ∧ ([0#8] : List Byte).length ≠ (2#8 : Byte).toNat
      ∧ results (after .passDown (told [0x40#8, 61#8, 200#8, 2#8, 0#8] passing)) = [.badForm]
      ∧ ([] : List Byte).length = (0#8 : Byte).toNat
      ∧ (191#8 : Byte).toNat < 192 ∧ 192 ≤ (192#8 : Byte).toNat ∧ addressInRange 127 = false ∧ addressInRange 61 = true
      ∧ passing.node 99 = none ∧ (passing.node 52).map (·.cls) = some .lock ∧ (passing.node 62).map (·.cls) = some .detector
      ∧ passing.quietZone 6 = false ∧ (passing.node 61).map (·.cls) = some .pickDisplay ∧ passing.lif.txq.length < 24
      ∧ 24 ≤ full.lif.txq.length := by
  decide +kernel

theorem witness_RestartTakesTwoPhases :
    let s (b : List Byte) (armed fire : Bool) : State :=
      let t := told b boot
      { t with ti := { t.ti with restartArmed := armed }, fz := { t.fz with fireActive := fire } }
    (s [0x50#8, 1#8] false false).hasTakenVerified (dir [0x50#8, 1#8]) ∧ (s [0x50#8, 1#8] false false).fz.fireActive = false
      ∧ (s [0x50#8, 1#8] false true).fz.fireActive = true ∧ (3#8 : Byte) ≠ 1#8 ∧ (3#8 : Byte) ≠ 2#8
      ∧ (s [0x50#8, 3#8] false false).hasTakenVerified (dir [0x50#8, 3#8])
      ∧ (s [0x50#8, 2#8] true false).hasTakenVerified (dir [0x50#8, 2#8]) ∧ (s [0x50#8, 2#8] true false).ti.restartArmed = true
      ∧ (s [0x50#8, 2#8] false false).ti.restartArmed = false ∧ (s [0x50#8, 2#8] true true).fz.fireActive = true
      ∧ (s [0x07#8] true false).hasTakenVerified (dir [0x07#8]) ∧ (0x07#8 : Byte) ∉ directiveCodes := by
  decide +kernel

/-! ### Further clauses -/

/-- A start byte after the part's answer; a telegram of a relay node; a lock in LOCK_FAULT with a STATUS and with a
DET_TROUBLE. -/
theorem witness_receptions_after_the_answer :
    let s : State := { boot with lif := { boot.lif with loop := .answering, answer := some .ack } }
    let n := { node .probe 2 with relay := true }
    let r := receiving (withNodes [(5, n), (52, node .lock 14)] boot)
    let l : Lock := { lock with fault := true }
    let k : State := { r with la := { locks := [(52, l)] } }
    s.lif.loop = .answering ∧ s.lif.tail = false
      ∧ r.node 5 = some n ∧ n.sup = .ok ∧ n.relay = true ∧ n.cls = .probe
      ∧ telegramCheckMatches (telegram 127#8 5#8 0x02#8 0#8 []) = true
      ∧ k.node 52 = some (node .lock 14) ∧ (node .lock 14).cls = .lock ∧ (node .lock 14).sup = .ok ∧ k.lock 52 = some l
      ∧ l.fault = true ∧ l.send = .idle ∧ k.lif.txq.length < 24
      ∧ telegramCheckMatches (telegram 127#8 52#8 0x01#8 9#8 [0#8]) = true
      ∧ telegramCheckMatches (telegram 127#8 52#8 0x12#8 9#8 []) = true := by decide +kernel

/-- An item with every retry used, of a node SILENT already; each originator's record as its outcome finds it. -/
theorem witness_EndedItemsLeaveTheQueue_outcomes :
    let e2 := { onLoop with emptyRetries := 2, busyRetries := 5 }
    let silent := { node .dehumidifier 2 with sup := .silent, timer := none }
    let s := withTx .awaiting [e2] (withNodes [(40, silent)] boot)
    let la (l : Lock) : State := { boot with la := { locks := [(52, l)] } }
    let newer : Lock := { lock with commanded := .unlocked, send := .inFlight }
    let faulty : Lock := { lock with fault := true, send := .inFlight }
    let held : State := { boot with ti := { boot.ti with inHand := some (.passDown (dir [0x40#8, 61#8, 200#8, 0#8])) } }
    s.lif.loop = .awaiting ∧ s.carries [] e2 [] ∧ s.nothingPending ∧ 5 ≤ e2.busyRetries ∧ 2 ≤ e2.emptyRetries
      ∧ s.node 40 = some silent ∧ silent.sup = .silent
      ∧ (la lock).lock 52 = some lock ∧ lock.commanded = lock.sent ∧ lock.fault = false
      ∧ (la faulty).lock 52 = some faulty ∧ faulty.commanded = faulty.sent ∧ faulty.fault = true
      ∧ (la newer).lock 52 = some newer ∧ newer.commanded ≠ newer.sent ∧ (la newer).lif.txq.length < 24
      ∧ (shelf .ordered .released).order 311 = some (order311 .released) ∧ (order311 .released).state = .released
      ∧ (shelf .picked .picked).order 311 = some (order311 .picked) ∧ (order311 .picked).state ≠ .released
      ∧ (shelf .picked .picked).cartridge (order311 .picked).index
          = some { cart arc417 130 .picked with order := some 311 }
      ∧ (shelf .picked .picked).lif.txq.length < 24
      ∧ held.ti.inHand = some (.passDown (dir [0x40#8, 61#8, 200#8, 0#8])) := by
  unfold State.carries State.nothingPending; decide +kernel

/-- A PANEL_ALARM line and a MANUAL_RELEASE line of a NORMAL zone and of one in COUNTDOWN, and the discharge-check line of
a CONFIRMED zone with RELEASE_FAULT. -/
theorem witness_SettleTimersMakeTheEdges_fire :
    let l (f : LineFunction) : LineEntry := { abortLine .high (some 0) with function := f }
    let s (f : LineFunction) (x : Fire) (line : Option Nat) : State :=
      let t := withZones [(3, { storage line with fire := { fireGroup line .resume with checkLine := line.map (· + 13) } })] boot
      { (t.setFire 3 x) with lu := { t.lu with lines := [(15, l f)], raw := t.lu.raw.set 15 .low } }
    let c : Fire := { Fire.initial with state := .countdown, remaining := some 5 }
    let x : Fire := { Fire.initial with state := .confirmed, releaseFault := true }
    (∀ f ∈ [LineFunction.panelAlarm, .manualRelease], ∀ y ∈ [Fire.initial, c],
        (s f y none).shaped = true ∧ Table.get (s f y none).lu.lines 15 = some (l f) ∧ (l f).timer = some 0
          ∧ ((s f y none).zone 3).isSome = true ∧ (s f y none).conditions 3 = (s f y none).computeConditions 3
          ∧ ((s f y none).conditions 3).panel = false ∧ ((s f y none).conditions 3).manual = false
          ∧ (s f y none).lu.raw.getD 15 (l f).settled = (l f).active)
      ∧ (s .dischargeOk x (some 2)).shaped = true
      ∧ ((s .dischargeOk x (some 2)).zone 3).map (fun z => (z.fire.checkLine, z.fire.line)) = some (some 15, some 2)
      ∧ (s .dischargeOk x (some 2)).conditions 3 = (s .dischargeOk x (some 2)).computeConditions 3
      ∧ ((s .dischargeOk x (some 2)).conditions 3).discharge = false
      ∧ ((s .dischargeOk x (some 2)).conditions 3).abort = false
      ∧ ((s .dischargeOk x (some 2)).fire 3).state = .confirmed
      ∧ ((s .dischargeOk x (some 2)).fire 3).releaseFault = true
      ∧ ((after (.settleTimerExpiry 15) (s .dischargeOk x (some 2))).fire 3).state = .countdown := by decide +kernel

/-- A zone reloaded MANUAL to AUTO with DRY held: its first sample decides from NONE (R71). -/
theorem witness_SampleStepsTheClimate_fromNone :
    let p := [0xD6#8, 0x01#8, 0xC8#8, 0x00#8]
    let z := zone2.setClimate 2 { zone2.climate 2 with demand := .dry, fromNone := true, acc := 7520 }
    let s := withRing [item 12 .probe 0x02#8 p] z
    s.shaped = true ∧ s.offers (item 12 .probe 0x02#8 p) 0x02#8 (node .probe 2) ∧ s.climateGroup 2 = some climate2
      ∧ parseSample p = some (470, 200) ∧ (s.climate 2).fromNone = true
      ∧ (after .sample s).climate 2
        = { (s.climate 2) with demand := .none, fromNone := false, fRH := some 470, fT := some 200, stale := some 30000 } := by
  unfold State.offers; decide +kernel

/-- CAT ready at an epoch: a record past the threshold, a STAGING one that counts (at 0 and above), and one AWAY whose
due-back has come. -/
theorem witness_EpochsAreHeldAndZonesGoStale_worked :
    let a := archive.setClimate 9 { Climate.empty with fRH := some 450, fT := some 200, status := .inBand }
    let w := { cart arc420 7 .away with courier := some 5021, dueBack := some 50 }
    let s : State := atEpoch { a with
      cat := { cartridges := a.cat.cartridges ++ [(400, w)] }
      ti := { a.ti with clock := 50, clockSet := true } }
    s.cu.epochTimer = 0 ∧ s.catBusy = false ∧ Table.wf s.cat.cartridges = true ∧ 0 < s.threshold
      ∧ (s.cartridge 310).map (fun c => (c.state, c.order)) = some (.manifested, some 90)
      ∧ (s.cartridge 204).map (fun c => (c.state, c.staging, c.acclim)) = some (.staging, some 9, some 0)
      ∧ (s.cartridge 205).map (fun c => (c.state, c.staging, c.acclim)) = some (.staging, some 9, some 40)
      ∧ (s.formEpoch.getD 9 { excess := 0, status := .unset }).status = .inBand ∧ (s.fire 9).state = .normal
      ∧ s.cartridge 400 = some w ∧ w.overdue = false ∧ s.ti.clockSet = true ∧ w.dueBack = some 50 ∧ 50 ≤ s.ti.clock
      ∧ ((after .minuteEpoch s).cartridge 400).map (·.overdue) = some true
      ∧ ((after .minuteEpoch s).cartridge 204).map (·.state) = some .ready
      ∧ ((after .minuteEpoch s).cartridge 205).map (·.acclim) = some (some 39) := by decide +kernel

/-- The unit of 5.7 in each state a demand report, an outcome, a shutdown, a recovery and a return find it in. -/
theorem witness_PlantTimersFollowTheDemand_reports :
    let o := dry40 .off .stopped none
    let e := dry40 .running .elapsed none
    let d := { dry40 .shut .stopped none with owed := true }
    let f := dry40 .failed .stopped none
    (∀ a ∈ [o, e, d, f], ∀ w ∈ [Demand.none, .dry],
        (plant2 a w).actuator 2 .dry = some a ∧ (plant2 a w).attached a = true ∧ (plant2 a w).lif.txq.length < 24
          ∧ (plant2 a w).climateGroup 2 = some climate2 ∧ (plant2 a w).plantDecides 2 = true)
      ∧ (plant2 o .dry).demandPresent 2 .dry = true ∧ (plant2 e .none).demandPresent 2 .dry = false
      ∧ d.owed = true ∧ d.state = .shut ∧ 0 < climate2.minRun ∧ 0 < climate2.minRest
      ∧ ((plant2 f .none).fire 2).state.isShutdown = false
      ∧ ((withFire 2 .confirmed (plant2 f .none)).fire 2).state.isShutdown = true := by decide +kernel

/-- What they do (5.7): a start, a stop, an OFF owed repaid, a shutdown, a return and a recovery. -/
theorem test_plant_records :
    let off := dry40 .off .stopped none
    let shut := dry40 .shut .stopped none
    let views (l : List State) := l.map plantView
    views [(plant2 off .dry).reportRecord 2 .dry, (plant2 (dry40 .running .elapsed none) .none).reportRecord 2 .dry,
        (plant2 { shut with owed := true } .none).reportRecord 2 .dry,
        (plant2 (dry40 .running .elapsed none) .none).shutdownRecord 2 .dry, (plant2 shut .none).returnRecord 2 .dry,
        (plant2 (dry40 .failed .stopped none) .none).recoverRecord 2 .dry]
      = [(some (.starting, .stopped, none), [[1#8]]), (some (.stopping, .elapsed, none), [[0#8]]),
        (some (.shut, .stopped, none), [[0#8]]), (some (.shut, .stopped, none), [[0#8]]),
        (some (.rest, .stopped, some 30000), []), (some (.off, .stopped, none), [])] := by decide +kernel

/-- A fall of the healthy count to 1 in PRE_ALARM, to 2, and in another state; a count that has not run down. -/
theorem witness_DetectorsMoveTheFireState_healthy :
    let s (f : FireState) := withFire 15 f (withZones [(15, storage none)] boot)
    (s .preAlarm).shaped = true ∧ (s .preAlarm).zone 15 = some (storage none) ∧ (storage none).fire.line = none
      ∧ ((s .preAlarm).fire 15).state = .preAlarm ∧ ((s .normal).fire 15).state ≠ .preAlarm
      ∧ (let t := fire3 { Fire.initial with state := .countdown, remaining := some 1 }
         (t.fire 3).remaining ≠ some 0 ∧ t.shaped = true ∧ (t.zone 3).isSome = true
           ∧ (after (.countdownExpiry 3) t).fire 3 = t.fire 3)
      ∧ ((fire3 { Fire.initial with state := .countdown, remaining := some 0 }).fire 3).remaining = some 0 := by
  decide +kernel

/-- RESTORE of zone 3 without a release line, with an active panel and with a manual release. -/
theorem witness_IsolateAndRestoreMoveTheZone_panel :
    let s (c : Conditions) : State :=
      let t := told [0x32#8, 3#8] (withZones [(3, storage none)] (withFire 3 .isolated boot))
      { t with lu := { t.lu with conditions := t.lu.conditions.set 3 c } }
    (∀ c ∈ [{ Conditions.inactive with panel := true }, { Conditions.inactive with manual := true }],
        (s c).shaped = true ∧ (s c).hasTakenVerified (dir [0x32#8, 3#8]) ∧ (s c).zone 3 = some (storage none)
          ∧ ((s c).fire 3).state = .isolated ∧ (s c).conditions 3 = c
          ∧ ((after .restore (s c)).fire 3).state = .confirmed)
      ∧ (storage none).fire.line = none
      ∧ ((told [0x32#8, 3#8] boot).fire 3).state ≠ .isolated := by decide +kernel

/-- A queue of 24 LOCK items gives up none to a lock; a lock whose zone is in fire, and one whose zone is quiet. -/
theorem witness_ClaimsDecideTheCommandedState_full :
    let q := (List.range 24).map (fun i => tx .lock 53 (.lockSet 53 true) .ready i)
    let s : State := { withTx .quiet q boot with la := { locks := [(52, lock)] } }
    s.lock 52 = some lock ∧ lock.send = .idle ∧ 24 ≤ s.lif.txq.length
      ∧ (∀ x ∈ s.lif.txq, x.state = .onLoop ∨ x.cls = .lock ∨ x.cls = .fire)
      ∧ held52.lock 52 = some { lock with claims := { lock.claims with fireHold := true } }
      ∧ held52.fireHoldDue 52 = false ∧ s.fireHoldDue 52 = lock.claims.fireHold := by decide +kernel

/-- An OCCUPIED at its home slot, of a cartridge in every state. -/
theorem witness_SlotEventsFollowTheCartridge_home :
    let p := [2#8, 2#8] ++ arc417
    let it := item 26 .slotStrip 0x20#8 p
    let s (c : Cartridge) (st : OrderState) : State :=
      let t := withRing [it] (shelf .ordered st)
      { t with cat := { cartridges := [(417, c)] } }
    let c (st : CartState) := cart arc417 130 st
    (∀ st ∈ [CartState.shelved, .picked, .ready, .missing, .staging, .away, .inbound],
        (s (c st) .released).catBusy = false ∧ (s (c st) .released).offers it 0x20#8 (node .slotStrip 2)
          ∧ (s (c st) .released).indexOfLabel arc417 = some 417 ∧ (s (c st) .released).cartridge 417 = some (c st)
          ∧ (c st).homeZone = 2 ∧ (c st).homeSlot = 128 + 2)
      ∧ parseSlotEvent p = some (.occupied 2 arc417)
      ∧ (let m := { c .manifested with order := some 311, hatch := some .h0 }
         (s m .manifested).cartridge 417 = some m ∧ (s m .manifested).order 311 = some (order311 .manifested)
           ∧ (order311 .manifested).index = 417 ∧ (s m .manifested).lif.txq.length < 24
           ∧ ((after .slotEvent (s m .manifested)).order 311).map (·.state) = some .released)
      ∧ boot.partyKey 5021 = none ∧ (shelf .ordered .released).partyKey 5021 = some 0
      ∧ Table.get (shelf .ordered .released).pt.parties 0 = some party5021 ∧ party5021.id = 5021
      ∧ party5021.courier = some courier5021 ∧ Table.wf (shelf .ordered .released).pt.parties = true := by
  unfold State.offers; decide +kernel

/-- A clear of a catalogue with cartridges AWAY and an epoch that waits; a load whose second entry is refused. -/
theorem witness_CatalogueWorkCompletes_more :
    let d := dir [0x12#8, 5#8, 0xFA#8]
    let s := shelf .ordered .released
    let clear : State := { s with
      cat := { cartridges := [(420, { cart arc420 133 .away with courier := some 5021 })] }
      cu := { s.cu with epochs := [epoch33] }
      ti := { s.ti with inHand := some (.catalogueClear d) } }
    let bad := List.replicate 24 0#8 ++ [0xFF#8] ++ List.replicate 23 1#8
    let load : State := { boot with ti := { boot.ti with inHand := some (.catalogueLoad d 0 2 bad) } }
    clear.ti.inHand = some (.catalogueClear d) ∧ (∀ p ∈ clear.cat.cartridges, p.2.inMotion = false)
      ∧ Table.wf clear.cat.cartridges = true ∧ Table.wf clear.pt.parties = true ∧ clear.heldCount 5021 = 2
      ∧ (after .catalogueCompletion clear).heldCount 5021 = 1 ∧ clear.cu.epochs ≠ []
      ∧ load.ti.latch = false ∧ load.ti.inHand = some (.catalogueLoad d 0 2 bad)
      ∧ (∃ r, State.loadEntries .catalogue 0 0 (cutEntries 24 2 bad) load.dropHand = .error (1, r) ∧ r ≠ .latched) := by
  refine ⟨by decide +kernel, by decide +kernel, by decide +kernel, by decide +kernel, by decide +kernel, by decide +kernel,
    by decide +kernel, by decide +kernel, by decide +kernel, .range, by rfl, by decide +kernel⟩

/-- A SHELVED entry placed beside another label and another home. -/
theorem witness_CatalogueWorkCompletes_entry :
    let e : List Byte := arc420 ++ [2#8, 133#8, 0#8, 1#8] ++ List.replicate 12 0#8
    let s : State := { withZones [(2, storage none)] boot with cat := { cartridges := [(417, cart arc417 130 .shelved)] } }
    (∃ u, s.loadEntry .catalogue 420 e = .ok u)
      ∧ ∀ i j c d, s.cartridge i = some c → s.cartridge j = some d →
          (c.label = d.label ∨ (c.homeZone = d.homeZone ∧ c.homeSlot = d.homeSlot)) → i = j := by
  refine ⟨⟨_, rfl⟩, ?_⟩
  have h : ∀ i c, Table.get [(417, cart arc417 130 .shelved)] i = some c → i = 417 := by
    intro i c hi
    by_contra n
    simp [Table.get, Ne.symm n] at hi
  intro i j c d hi hj _
  exact (h i c hi).trans (h j d hj).symm

/-- A record with an order in the released zone, one without, and one of another zone; an order with no pick shown. -/
theorem witness_ReleaseQuarantinesTheZone_orders :
    let s := shelf .picked .picked
    let c := { cart arc417 130 .picked with order := some 311 }
    s.cartridge 417 = some c ∧ Table.wf s.cat.cartridges = true ∧ c.homeZone = 2 ∧ c.order = some 311
      ∧ c.quarantine = false ∧ s.order 311 = some (order311 .picked) ∧ (order311 .picked).pick = .notSent
      ∧ (s.quarantineZone 2).order 311 = none ∧ ((s.quarantineZone 2).cartridge 417).map (·.quarantine) = some true
      ∧ (s.quarantineZone 3).cartridge 417 = some c ∧ (s.closeOrder 311 .cancelled).order 311 = none := by decide +kernel

/-- The last number 65535, and a list whose numbers are passed over. -/
theorem witness_OrderIsAcceptedOrRefused_numbers :
    let s : State := { ordering [{ order311 .released with number := 1 }] with
      ol := { orders := [{ order311 .released with number := 1 }], lastNumber := 65535 } }
    s.ol.orders.length ≤ 64 ∧ s.newNumber = 2 := by decide +kernel

/-- CLOSE of an intake that holds a cartridge of courier 5021. -/
theorem witness_ScansFillTheListAndCloseEndsIt_intake :
    let cl := item 88 .hatchReader 0x42#8 []
    let g : HandoverGroup := { hatch := .h0, lock := 52, staging := 9 }
    let c := { cart arc417 130 .inbound with courier := some 5021, hatch := some .h0, dueBack := some 9 }
    let e := { exchange .intake [417] with openTimer := none, intakeTimer := some 5, direction := some .inward }
    let s : State := { withRing [cl] (hatch0 e) with cat := { cartridges := [(417, c)] }, ol := { orders := [], lastNumber := 313 } }
    s.offersTerminal cl 0x42#8 .h0 .reader 14 g ∧ (s.engine .h0).state = .intake ∧ (s.engine .h0).list = [417]
      ∧ s.cartridge 417 = some c ∧ Table.wf s.pt.parties = true ∧ [417].Nodup ∧ s.heldCount 5021 = 2
      ∧ (after .close s).heldCount 5021 = 1 ∧ ((after .close s).cartridge 417).map (·.state) = some .staging := by
  refine ⟨⟨terminal .hatchReader 14 .h0, by unfold State.offers; decide +kernel⟩, by decide +kernel⟩

/-- CANCEL of a manifest of one cartridge with its order, the hatch's claim on the lock. -/
theorem witness_ExchangesEndIdle_aborted :
    let it := item 90 .courierTerminal 0x44#8 []
    let g : HandoverGroup := { hatch := .h0, lock := 52, staging := 9 }
    let c := { cart arc417 130 .manifested with order := some 311, hatch := some .h0 }
    let h := hatch0 (exchange .confirm [417])
    let s : State := { withRing [it] h with
      cat := { cartridges := [(417, c)] }, ol := { orders := [order311 .manifested], lastNumber := 311 } }
    s.offersTerminal it 0x44#8 .h0 .courier 14 g ∧ (s.engine .h0).state = .confirm ∧ (s.engine .h0).list = [417]
      ∧ s.cartridge 417 = some c ∧ c.order = some 311 ∧ s.order 311 = some (order311 .manifested)
      ∧ s.hatchZone .h0 = some (14, g) ∧ s.lock 52 = some lock
      ∧ (after .cancel s).cartridge 417 = some { c with state := .picked, hatch := none }
      ∧ ((after .cancel s).order 311).map (·.state) = some .picked := by
  refine ⟨⟨terminal .courierTerminal 14 .h0, by unfold State.offers; decide +kernel⟩, by decide +kernel⟩

/-- A door report of the hatch's lock, OPEN and CLOSED. -/
theorem witness_DoorCompletesTheExchange_reports :
    let it (p : Byte) := item 52 .lock 0x30#8 [p]
    let s (p : Byte) (d : DoorState) : State :=
      { withRing [it p] (hatch0 { exchange .release [417] with openTimer := none }) with la := { locks := [(52, { lock with door := d })] } }
    (∀ p ∈ [1#8, 2#8], ∀ d ∈ [DoorState.opened, .closed],
        (s p d).offers (it p) 0x30#8 (node .lock 14) ∧ (s p d).lock 52 = some { lock with door := d }
          ∧ (s p d).hatchOfLock 52 = some .h0)
      ∧ ((after .doorState (s 1#8 .closed)).engine .h0).doorOpened = true := by
  unfold State.offers; decide +kernel

/-- The manifest of 9.12, each cartridge with its order of courier 5021. -/
theorem witness_OutboundCommitHandsOut_sum :
    let c (a b : Byte) (n i : Nat) := { cart (label a b) i .manifested with order := some n, hatch := some .h0 }
    let h := hatch0 { exchange .release [417, 421] with doorOpened := true, openTimer := none }
    let s : State := { h with
      cat := { cartridges := [(417, c 0x31#8 0x37#8 311 130), (421, c 0x32#8 0x31#8 313 134)] },
      ol := { orders := [order311 .manifested, { order311 .manifested with number := 313, index := 421 }], lastNumber := 313 } }
    let m := (s.engine .h0).list
    m = [417, 421] ∧ m.Nodup ∧ (∀ i ∈ m, (s.cartridge i).isSome = true) ∧ (s.engine .h0).courier = some 5021
      ∧ s.partyKey 5021 = some 0 ∧ Table.get s.pt.parties 0 = some party5021 ∧ Table.wf s.pt.parties = true
      ∧ (m.map (fun i => (s.cartridge i).bind (·.order))) = [some 311, some 313]
      ∧ (s.order 311).map (·.courier) = some 5021 ∧ (s.order 313).map (·.courier) = some 5021
      ∧ (s.ol.orders.map (·.number)).Nodup ∧ (m.map (fun i => (s.cartridge i).bind (·.order))).Nodup
      ∧ (s.commitOut .h0).courierSum 5021 = s.courierSum 5021 := by decide +kernel

/-- TI idle with an empty ingress and with one of 3 (after which 2 remain); TI not idle with 3. -/
theorem witness_FramesArriveOrAreDiscarded_taken :
    let f := frame 0x01#8 [0x04#8]
    let s (i : Nat) (h : Option InHand) : State := { boot with ti := { boot.ti with ingress := List.replicate i (dir []), inHand := h } }
    let busy := some (InHand.deciding (dir []) (reading true boot.cs))
    frameCheckMatches f = true ∧ f.kind = 0x01#8 ∧ (s 0 none).ti.ingress = []
      ∧ (s 0 none).ti.inHand = none ∧ (s 0 none).ti.replies.length < 8 ∧ (s 0 none).ti.restartPending = false
      ∧ (s 3 none).ti.ingress = dir [] :: List.replicate 2 (dir []) ∧ (List.replicate 2 (dir [])).length < 3
      ∧ (s 3 busy).ti.inHand ≠ none ∧ (s 3 busy).ti.ingress.length < 4
      ∧ (after (.frameReceived f) (s 0 none)).ti.inHand = some (.deciding { tag := 7#16, body := [0x04#8] } (reading false boot.cs)) := by
  decide +kernel

/-- STARTUP at the head with a reply that waits; a reply sent with 8 that waited, one directive in the ingress; the
RESTART reply sent during a code write. -/
theorem witness_RepliesGoBeforeNotices_order :
    let r : Reply := { tag := 0#16, code := 0x04#8, result := .ok, body := .empty, restarts := false }
    let s : State := { boot with ti := { boot.ti with
      replies := List.replicate 8 r, ingress := [dir []], sending := some (.reply r) } }
    let w : State := { boot with ti := { boot.ti with replies := [r] } }
    let q : State := { w with ti := { w.ti with notices := [notice 3 1#16] } }
    let x : State := { boot with ti := { boot.ti with sending := some (.reply { r with restarts := true }) }
                                 cs := { boot.cs with writing := some [1#8, 2#8, 3#8, 4#8, 5#8, 6#8] } }
    w.ti.carrier = true ∧ w.ti.sending = none ∧ (∃ n ns c b, w.ti.notices = n :: ns ∧ n.body = .startup c b)
      ∧ w.ti.replies = r :: [] ∧ (∀ n ∈ q.ti.notices, ∀ c b, n.body ≠ .startup c b)
      ∧ s.ti.replies = r :: List.replicate 7 r ∧ s.ti.inHand = none ∧ s.ti.ingress = dir [] :: []
      ∧ (List.replicate 7 r).length < 8 ∧ s.ti.restartPending = false
      ∧ x.ti.sending = some (.reply { r with restarts := true }) ∧ x.cs.writing = some [1#8, 2#8, 3#8, 4#8, 5#8, 6#8]
      ∧ (after .trunkSendComplete s).ti.inHand = some (.deciding (dir []) (reading false boot.cs)) := by
  refine ⟨by decide +kernel, by decide +kernel, ⟨_, _, _, _, rfl, rfl⟩, by decide +kernel, ?_, by decide +kernel,
    by decide +kernel, by decide +kernel, by decide +kernel, by decide +kernel, by decide +kernel, by decide +kernel,
    by decide +kernel⟩
  intro n h c b
  simp [notice] at h
  simp [h]

theorem witness_CarrierLossEndsTheSession_absent :
    ({ boot with ti := { boot.ti with carrier := false } } : State).ti.carrier = false := rfl

/-- Each directive of the list, both rows of RESTART and a code outside the set, taken UNVERIFIED. -/
theorem witness_UnverifiedDirectivesAreRefused_rows :
    let s (b : List Byte) : State := { boot with ti := { boot.ti with inHand := some (.deciding (dir b) (reading false boot.cs)) } }
    (∀ b ∈ [[0x50#8, 2#8], [0x50#8, 1#8], [0x50#8], [0x07#8]], (s b).underDecision = some (dir b, false))
      ∧ (dir [0x50#8]).body ≠ [0x50#8, 0x02#8] ∧ 0x07#8 ∉ directiveCodes
      ∧ results (after .restartPhase2 (s [0x50#8, 2#8])) = [.unverified]
      ∧ results (after .unknownDirective (s [0x07#8])) = [.unverified] := by decide +kernel

/-- A plant node that zone 2 names, in AUTO and in MANUAL with its record SHUT and OFF, and one that no zone names; a
detector of a quiet zone; a terminal. -/
theorem witness_PassDownIsFilteredAndQueued_plant :
    let b := [0x40#8, 40#8, 192#8, 0#8]
    let s (m : Mode) (a : Actuator) : State :=
      told b ((withZones [(2, { storage none with climate := some { climate2 with mode := m } })] passing).setActuator 2 .dry a)
    let o := dry40 .off .stopped none
    let x := dry40 .shut .stopped none
    (s .auto o).hasTakenVerified (dir b) ∧ (s .auto o).node 40 = some (node .dehumidifier 2)
      ∧ (s .auto o).plantZoneOf 40 .dehumidifier = some (2, .dry, climate2)
      ∧ (s .manual o).plantZoneOf 40 .dehumidifier = some (2, .dry, { climate2 with mode := .manual })
      ∧ (s .manual o).actuator 2 .dry = some o ∧ (s .manual x).actuator 2 .dry = some x ∧ x.state = .shut
      ∧ (withZones [] (s .auto o)).plantZoneOf 40 .dehumidifier = none
      ∧ (withFire 6 .normal passing).quietZone 6 = true
      ∧ results (after .passDown (s .auto o)) = [.owned] ∧ results (after .passDown (s .manual x)) = [.badState]
      ∧ (after .passDown (s .manual o)).lif.txq.map (·.dest) = [40] := by decide +kernel

/-- Each table of CLEAR_TABLE with what refuses it and what does not. -/
theorem witness_ClearTableEmptiesTheTable_tables :
    let b (t : Byte) := [0x12#8, t, ~~~t]
    let s (t : Byte) (u : State) := told (b t) u
    let fire := withFire 6 .confirmed boot
    (∀ t ∈ [1#8, 2#8, 4#8, 6#8], (s t boot).hasTakenVerified (dir (b t)) ∧ (s t boot).ti.latch = false
        ∧ results (after .clearTable (s t boot)) = [.ok])
      ∧ (tableOf 1#8 = some .node ∧ tableOf 2#8 = some .zone ∧ tableOf 4#8 = some .line ∧ tableOf 6#8 = some .party)
      ∧ results (after .clearTable (s 1#8 held52)) = [.inUse]
      ∧ results (after .clearTable (s 1#8 (hatch0 (exchange .opened [])))) = [.inUse]
      ∧ results (after .clearTable (s 1#8 passing)) = [.zoneActive]
      ∧ results (after .clearTable (s 2#8 archive)) = [.inUse]
      ∧ results (after .clearTable (s 2#8 fire)) = [.zoneActive]
      ∧ results (after .clearTable (s 4#8 (zone3 (abortLine .high none) (abortLine .high none) .high .high .resume))) = [.zoneActive]
      ∧ results (after .clearTable (s 6#8 (shelf .ordered .released))) = [.inUse]
      ∧ (shelf .ordered .released).courierSum 5021 = 3 := by decide +kernel

/-- Entries of a NODE, a ZONE, a LINE and a PARTY segment that are placed: a lock at an empty address, a detector that
leaves its zone, a STORAGE zone, an ABORT line, and a courier at an empty place and at its own. -/
theorem witness_LoadSegmentIsAppliedWholeOrNotAtAll_entries :
    let z := withZones [(2, storage none)] boot
    let lockEntry : List Byte := [1#8, 4#8, 2#8, 60#8, 0#8, 0#8, 0xFF#8, 0xFF#8, 0xFF#8]
    let det : List Byte := [1#8, 2#8, 2#8, 60#8, 0#8, 0#8, 0xFF#8, 0xFF#8, 0xFF#8]
    let old := withNodes [(21, node .detector 3)] z
    let zone : List Byte := [1#8, 0xC2#8, 1#8, 30#8, 0#8, 0x90#8, 1#8, 0xF4#8, 1#8, 4#8, 44#8, 1#8, 0#8, 0#8, 0#8, 0#8, 0#8,
      0#8, 0#8, 0xFF#8, 30#8, 0#8, 0xFF#8, 0#8] ++ List.replicate 6 0xFF#8
    let line : List Byte := [1#8, 1#8, 3#8, 0#8, 5#8]
    let party : List Byte := [1#8, 0x9D#8, 0x13#8, 0#8, 0#8, 0#8, 0#8, 0#8, 1#8, 1#8, 14#8, 0#8, 3#8, 0#8]
    let there : State := { boot with pt := { parties := [(0, party5021)] } }
    (∃ n, parseNode lockEntry = .place n ∧ z.judgeNode (51 + 1) (some n) = none ∧ z.node (51 + 1) = none ∧ n.cls = .lock)
      ∧ (∃ n, parseNode det = .place n ∧ old.judgeNode (20 + 1) (some n) = none
          ∧ old.node (20 + 1) = some (node .detector 3) ∧ n.zone ≠ 3)
      ∧ (∃ x, parseZone zone = .place x ∧ boot.judgeZone 15 (some x) = none ∧ boot.climateGroup 15 = none
          ∧ x.climate.isSome = true)
      ∧ (∃ x, parseLine (boot.lu.raw.getD 4 .low) line = .place x ∧ boot.judgeLine 4 (some x) = none)
      ∧ (∃ x, parseParty party = .place x ∧ boot.judgeParty 0 (some x) = none ∧ Table.get boot.pt.parties 0 = none
          ∧ x.courier.isSome = true ∧ there.judgeParty 0 (some x) = none
          ∧ Table.get there.pt.parties 0 = some party5021 ∧ x.id = 5021)
      ∧ boot.shaped = true := by
  refine ⟨⟨_, rfl, ?_⟩, ⟨_, rfl, ?_⟩, ⟨_, rfl, ?_⟩, ⟨_, rfl, ?_⟩, ⟨_, rfl, ?_⟩, ?_⟩ <;> decide +kernel

/-- A countdown that stands for the zone of 6.12 with its counts, its condition and the fault output. -/
theorem witness_CountsConditionsAndFaultOutputStand :
    let s : State := { fire3 { Fire.initial with state := .countdown, remaining := some 0 } with pending := [.countdownExpiry 3] }
    s.wellFormed = true ∧ s.computedStands = true ∧ s.conditions 3 = { Conditions.inactive with discharge := true }
      ∧ s.healthy 3 = 3 ∧ ∃ t, step s = .next t := by
  refine ⟨by decide +kernel, by decide +kernel, by decide +kernel, by decide +kernel, _, rfl⟩

/-! ### Clauses on timers, notices, fire, orders, terminals and loads -/

/-- Within a tenth and within a second; a countdown at 0; items that wait, stand READY and are on the loop. -/
theorem witness_EmptyQueueLetsATickPass_within :
    let f : Fire := { Fire.initial with state := .countdown, remaining := some 3, phase := 8 }
    let r : Fire := { Fire.initial with state := .countdown, remaining := some 0 }
    let a := tx .lock 52 (.lockSet 52 true) (.waiting 0) 0
    let b := tx .lock 53 (.lockSet 53 true) .ready 1
    let s := withTx .quiet [a, b, onLoop] ((boot.setFire 3 f).setFire 15 r)
    s.pending = [] ∧ s.fz.fire[3]? = some f ∧ f.phase < 9 ∧ f.remaining = some (2 + 1) ∧ s.fz.fire[15]? = some r
      ∧ r.remaining = some 0 ∧ s.ti.clockTicks < 99 ∧ s.lif.txq[0]? = some a ∧ a.state = .waiting 0 ∧ s.lif.txq[1]? = some b
      ∧ b.state = .ready ∧ s.lif.txq[2]? = some onLoop ∧ onLoop.state = .onLoop := by decide +kernel

/-- A probe and a detector of a quiet zone that were SILENT are heard from. -/
theorem witness_AcceptedTelegramJoinsTheRing_recovered :
    let p := { node .probe 2 with sup := .silent, timer := none }
    let d := { node .detector 2 with sup := .fault, timer := none }
    let s := receiving (withNodes [(5, p), (31, d)] boot)
    let t := telegram 127#8 5#8 0x02#8 0#8 []
    let u := telegram 127#8 31#8 0x10#8 0#8 []
    s.lif.loop = .receiving ∧ telegramCheckMatches t = true ∧ telegramCheckMatches u = true ∧ s.node t.src.toNat = some p
      ∧ s.node u.src.toNat = some d ∧ p.sup ≠ .ok ∧ d.sup ≠ .ok ∧ p.relay = false ∧ d.relay = false
      ∧ p.lastSeq ≠ some t.seq ∧ s.lif.ring.length < 16 ∧ u.kind ≠ 0x12#8 ∧ (s.fire d.zone).state ≠ .preAlarm
      ∧ ((after (.telegramReceived t) s).node 5).map (·.sup) = some .ok := by decide +kernel

/-- A RESULT to a terminal that does not answer a third time. -/
theorem witness_EndedItemsLeaveTheQueue_silent :
    let it := { tx .display 88 (.result .h0) .onLoop 0 with emptyRetries := 2 }
    let n := terminal .hatchReader 14 .h0
    let s := withTx .awaiting [it] (withNodes [(88, n)] boot)
    s.carries [] it [] ∧ s.arrivalsRising = true ∧ 2 ≤ it.emptyRetries ∧ s.node it.dest = some n ∧ s.nothingPending
      ∧ it.origin = .result .h0 ∧ n.sup ≠ .silent ∧ n.cls ≠ .detector
      ∧ ((after .acknowledgeSlotExpiry s).node 88).map (·.sup) = some .silent := by
  unfold State.carries State.nothingPending; decide +kernel

/-- A pending RELEASE of zone 3, and of zone 3 and of a zone above it. -/
theorem witness_QueuePlacesAreGivenByClass_release :
    let r := tx .display 88 (.result .h0) .onLoop 0
    let f : Fire := { Fire.initial with state := .released, pendingRelease := true, unconfirmed := true }
    let one := withTx .awaiting [r] (fire3 f)
    let two := one.setFire 15 f
    (∀ s ∈ [one, two], s.carries [] r [] ∧ s.lif.loop = .awaiting ∧ s.fz.pendingAlert = false
        ∧ (s.fire 3).pendingRelease = true ∧ (∀ y < 3, (s.fire y).pendingRelease = false) ∧ s.suppressionNode 3 = some 45
        ∧ (after (.acknowledgeSlotAnswer 0x4B#8) s).lif.txq.map (fun x => (x.dest, x.kind, x.payload))
          = [(45, 0x80#8, [3#8])])
      ∧ r.origin = .result .h0 ∧ (two.fire 15).pendingRelease = true := by
  unfold State.carries; decide +kernel

/-- A detector of a zone in PRE_ALARM and one of a quiet zone, OK and SUSPECT, and one that reports its own trouble. -/
theorem witness_NodeStateNotices_detectors :
    let s (f : FireState) (v : Supervision) :=
      withFire 2 f (withNodes [(31, { node .detector 2 with sup := v, timer := some 0, lastSeq := some 0#8 })] boot)
    (∀ f ∈ [FireState.normal, .preAlarm], ∀ v ∈ [Supervision.ok, .suspect],
        ((s f v).node 31).map (fun e => (e.cls, e.sup, e.timer)) = some (.detector, v, some 0)
          ∧ ((s f v).fire 2).state = f)
      ∧ (let t := withRing [item 31 .detector 0x12#8 []] (s .normal .ok)
         (t.fire 2).state ≠ .preAlarm ∧ (t.node 31).map (fun e => (e.sup, e.lastSeq)) = some (.ok, some 0#8)) := by
  decide +kernel

/-- A unit of zone 2 with a minimum run and rest of 0, and one whose node is gone. -/
theorem witness_PlantTimersFollowTheDemand_edges :
    let g := { climate2 with minRun := 0, minRest := 0 }
    let zero (a : Actuator) (d : Demand) := withZones [(2, { storage none with climate := some g })] (plant2 a d)
    let gone (a : Actuator) (d : Demand) := withNodes [(12, node .probe 2)] (plant2 a d)
    let o := dry40 .off .stopped none
    let e := dry40 .running .elapsed none
    let st := dry40 .starting .stopped none
    let sp := dry40 .stopping .elapsed none
    (zero st .dry).actuator 2 .dry = some st ∧ (zero st .dry).climateGroup 2 = some g ∧ g.minRun = 0 ∧ g.minRest = 0
      ∧ (zero st .dry).demandPresent 2 .dry = true ∧ (zero sp .none).actuator 2 .dry = some sp
      ∧ (zero sp .none).demandPresent 2 .dry = false
      ∧ (∀ a ∈ [o, e, st], ∀ d ∈ [Demand.none, .dry],
          (gone a d).actuator 2 .dry = some a ∧ (gone a d).attached a = false ∧ (gone a d).lif.txq.length < 24
            ∧ (gone a d).plantDecides 2 = true ∧ (gone a d).demandPresent 2 .dry = decide (d = .dry)) := by decide +kernel

/-- A DET_ALARM in NORMAL with one and with two healthy detectors, and in PRE_ALARM from a new detector; another change. -/
theorem witness_DetectorsMoveTheFireState_notices :
    let e := node .detector 15
    let s (f : Fire) (n : Nat) : State :=
      let t := withRing [item 31 .detector 0x10#8 []] (withZones [(15, storage none)] (withNodes [(30, e), (31, e)] boot))
      { (t.setFire 15 f) with nt := { t.nt with healthyCount := t.nt.healthyCount.set 15 n } }
    let pre : Fire := { Fire.initial with state := .preAlarm, knock := [30], alarm := [30] }
    (∀ p ∈ [(Fire.initial, 1), (Fire.initial, 2), (pre, 2)],
        (s p.1 p.2).shaped = true ∧ (s p.1 p.2).offers (item 31 .detector 0x10#8 []) 0x10#8 e
          ∧ (s p.1 p.2).zone 15 = some (storage none) ∧ (s p.1 p.2).healthy 15 = p.2)
      ∧ 31 ∉ pre.knock ∧ (s pre 2).shaped = true := by
  unfold State.offers; decide +kernel

/-- Queues with room and without a place to give; a cartridge of the released zone, one of another and one that is away. -/
theorem witness_ExpiryReleasesTheAgent_queue :
    let s0 := fire3 { Fire.initial with state := .countdown, remaining := some 0 }
    let c (z i : Nat) (st : CartState) := { cart (label 0x30#8 (BitVec.ofNat 8 (0x30 + i))) i st with homeZone := z }
    let s : State := { s0 with cat := { cartridges := [(1, c 3 1 .shelved), (2, c 2 2 .shelved), (3, c 3 3 .away)] } }
    let q := (List.range 24).map (fun i => tx .fire 45 (.release 5 true) .ready i)
    let full : State := { s with lif := { s.lif with txq := q } }
    (∀ u ∈ [s, full], u.shaped = true ∧ (u.zone 3).isSome = true ∧ (u.fire 3).state = .countdown
        ∧ (u.fire 3).remaining = some 0 ∧ u.suppressionNode 3 = some 45 ∧ Table.wf u.cat.cartridges = true
        ∧ (u.engine .h0).list = [] ∧ (u.engine .h1).list = [])
      ∧ s.lif.txq.length < 24 ∧ s.arrivalsRising = true ∧ 24 ≤ full.lif.txq.length
      ∧ (∀ x ∈ full.lif.txq, x.state = .onLoop ∨ x.cls = .fire)
      ∧ s.cartridge 1 = some (c 3 1 .shelved) ∧ s.cartridge 2 = some (c 2 2 .shelved) ∧ s.cartridge 3 = some (c 3 3 .away)
      ∧ ((after (.countdownExpiry 3) full).fire 3).pendingRelease = true
      ∧ ((after (.countdownExpiry 3) s).cat.cartridges.map (·.2.quarantine)) = [true, false, false] := by decide +kernel

/-- An accepted ORDER of a zone with a pick display, and one that names a node of another class. -/
theorem witness_OrderIsAcceptedOrRefused_display :
    let b := 0x20#8 :: arc417 ++ [0x9D#8, 0x13#8]
    let z := { storage none with fire := { fireGroup none .resume with display := some 61 } }
    let s (c : NodeClass) := withNodes [(61, node c 2)] (withZones [(2, z)] (told b (ordering [])))
    (∀ c ∈ [NodeClass.pickDisplay, .probe], (s c).hasTakenVerified (dir b)
        ∧ (s c).judgeOrder arc417 5021 = none
        ∧ (s c).indexOfLabel arc417 = some 417 ∧ (s c).cartridge 417 = some (cart arc417 130 .shelved) ∧ (s c).zone 2 = some z
        ∧ (s c).order (s c).newNumber = none ∧ (s c).lif.txq.length < 24)
      ∧ z.fire.display = some 61 ∧ (s .pickDisplay).hasClass 61 .pickDisplay = true
      ∧ (s .probe).hasClass 61 .pickDisplay = false ∧ ((s .pickDisplay).fire 2).state.holdsOrders = false
      ∧ (after .order (s .pickDisplay)).ol.orders.map (·.pick) = [.inFlight]
      ∧ (after .order (s .pickDisplay)).lif.txq.map (fun x => (x.dest, x.kind)) = [(61, 0xA0#8)]
      ∧ (after .order (s .probe)).lif.txq = [] := by decide +kernel

/-- Orders of zone 2 and of another zone, RELEASED with each kind of pick and WAITING, as a fire comes and goes. -/
theorem witness_OrderIsAcceptedOrRefused_fire :
    let z := { storage none with fire := { fireGroup none .resume with display := some 61 } }
    let o (n i : Nat) (st : OrderState) (p : Pick) : Order := { order311 st with number := n, index := i, pick := p }
    let l := [o 1 417 .released .notSent, o 2 418 .released .inFlight, o 3 419 .released (.shown 61), o 4 420 .waiting .notSent,
              o 5 421 .waiting .inFlight, o 6 422 .released (.shown 61), o 7 423 .picked .notSent]
    let c (i : Nat) : Cartridge := cart (label 0x30#8 (BitVec.ofNat 8 (i % 256))) i .ordered
    let u := withZones [(2, z), (3, z)] (withNodes [(61, node .pickDisplay 2)] boot)
    let s : State := { u with
      cat := { cartridges := [(417, c 417), (418, c 418), (419, c 419), (420, c 420), (421, c 421),
                              (422, { c 422 with homeZone := 3 }), (423, c 423)] }
      ol := { orders := l, lastNumber := 7 } }
    let view (t : State) := t.ol.orders.map (fun o => (o.state, o.pick))
    (s.ol.orders.map (·.number)).Nodup ∧ s.ol.orders = l ∧ s.lif.txq.length + s.ol.orders.length ≤ 24
      ∧ FireState.confirmed.holdsOrders = true ∧ FireState.normal.holdsOrders = false ∧ FireState.released.holdsOrders = true
      ∧ (s.cartridge 422).map (·.homeZone) = some 3 ∧ s.displayOf (o 4 420 .waiting .notSent) = some 61
      ∧ (withZones [(2, storage none)] s).displayOf (o 4 420 .waiting .notSent) = none
      ∧ ((withFire 2 .confirmed s).fire 2).state.holdsOrders = true
      ∧ view (s.ordersFire 2 .normal .confirmed) = [(.waiting, .notSent), (.waiting, .inFlight), (.waiting, .notSent),
          (.waiting, .notSent), (.waiting, .inFlight), (.released, .shown 61), (.picked, .notSent)]
      ∧ view (s.ordersFire 2 .released .normal) = [(.released, .notSent), (.released, .inFlight), (.released, .shown 61),
          (.released, .inFlight), (.released, .inFlight), (.released, .shown 61), (.picked, .notSent)]
      ∧ view s.ordersEpoch = view (s.ordersFire 2 .released .normal)
      ∧ view (withFire 2 .confirmed s).ordersEpoch = view s := by decide +kernel

/-- A terminal of a hatch without a zone and of another zone, and a node that is a terminal no more; the refusals. -/
theorem witness_OperatorBadgeJoinsTheExchange_ignored :
    let n (z : Nat) := terminal .hatchReader z .h1
    let was := { node .pickDisplay 14 with hatch := some .h1 }
    let rows : List (Instr × Byte) := [(.badge, 0x40#8), (.scan, 0x41#8), (.close, 0x42#8), (.confirm, 0x43#8), (.cancel, 0x44#8)]
    let s (k : Byte) (e : NodeEntry) (zs : Table ZoneEntry) :=
      withRing [item 88 .hatchReader k []] (withZones zs (withNodes [(88, e)] boot))
    (∀ p ∈ rows, ∀ e ∈ [n 14, was], ∀ zs ∈ [[], [(14, hatchZone .h1)], [(15, hatchZone .h1)]],
        (s p.2 e zs).offers (item 88 .hatchReader p.2 []) p.2 e ∧ e.hatch = some .h1)
      ∧ was.cls ≠ .hatchReader ∧ was.cls ≠ .courierTerminal ∧ (n 14).cls = .hatchReader
      ∧ (s 0x40#8 (n 14) []).hatchZone .h1 = none
      ∧ (s 0x40#8 (n 14) [(15, hatchZone .h1)]).hatchZone .h1 = some (15, { hatch := .h1, lock := 52, staging := 9 })
      ∧ (n 14).zone ≠ 15 := by
  unfold State.offers; decide +kernel

/-- The node that sent as a reader is reloaded as a PICK_DISPLAY, an entry a load can place; and its entry removed. -/
theorem witness_OperatorBadgeJoinsTheExchange_reloaded :
    let rows : List (Instr × Byte) := [(.badge, 0x40#8), (.scan, 0x41#8), (.close, 0x42#8), (.confirm, 0x43#8), (.cancel, 0x44#8)]
    let was := node .pickDisplay 14
    let s (k : Byte) (l : Table NodeEntry) := withRing [item 88 .hatchReader k []] (withNodes l boot)
    parseNode [1#8, 10#8, 14#8, 60#8, 0#8, 0#8, 0xFF#8, 0xFF#8, 0xFF#8] = .place was ∧ was.hatch = none
      ∧ (∀ p ∈ rows, (s p.2 [(88, was)]).offers (item 88 .hatchReader p.2 []) p.2 was
          ∧ (s p.2 []).lif.ring.head? = some (item 88 .hatchReader p.2 []) ∧ (s p.2 []).node 88 = none)
      ∧ was.cls ≠ .hatchReader ∧ was.cls ≠ .courierTerminal := by
  unfold State.offers; decide +kernel

/-- Sources 0, 127 and 255 of a telegram whose check matches, to the part and to all. -/
theorem witness_ReceptionsOpenAndAreDiscarded_source :
    let s := receiving (withNodes [(5, node .probe 2)] boot)
    s.lif.loop = .receiving
      ∧ (∀ d ∈ [0#8, 127#8], ∀ a ∈ [0#8, 127#8, 255#8],
          let t := telegram d a 1#8 0#8 []
          t.payload.length ≤ 40 ∧ telegramCheckMatches t = true ∧ t.dest = d ∧ (t.src = 0#8 ∨ 127 ≤ t.src.toNat)
            ∧ (after (.telegramReceived t) s).nt = s.nt ∧ (after (.telegramReceived t) s).lif.loop = .quiet) := by
  decide +kernel

/-- Ring heads that their owners only discard: from a node reloaded as a PICK_DISPLAY, of a zone without an entry or without
a climate group, in no form, and without a lock record. -/
theorem witness_ring_heads_discarded :
    let rows : List (Instr × NodeClass × Byte) := [(.sample, .probe, 0x02#8), (.detAlarm, .detector, 0x10#8),
      (.detRestore, .detector, 0x11#8), (.detTrouble, .detector, 0x12#8), (.slotEvent, .slotStrip, 0x20#8)]
    let s (it : RingItem) (e : NodeEntry) (zs : Table ZoneEntry) := withRing [it] (withZones zs (withNodes [(7, e)] boot))
    let p4 := [0x08#8, 0x02#8, 0xC8#8, 0x00#8]
    let door (p : List Byte) (ls : Table Lock) : State := { s (item 7 .lock 0x30#8 p) (node .lock 3) [] with la := { locks := ls } }
    (∀ r ∈ rows, (s (item 7 r.2.1 r.2.2 []) (node .pickDisplay 3) []).offers (item 7 r.2.1 r.2.2 []) r.2.2 (node .pickDisplay 3)
        ∧ (s (item 7 r.2.1 r.2.2 []) (node .pickDisplay 3) []).catBusy = false ∧ (node .pickDisplay 3).cls ≠ r.2.1)
      ∧ (∀ zs ∈ [[], [(3, { storage none with climate := none })]],
          (s (item 7 .probe 0x02#8 p4) (node .probe 3) zs).offers (item 7 .probe 0x02#8 p4) 0x02#8 (node .probe 3)
            ∧ ((s (item 7 .probe 0x02#8 p4) (node .probe 3) zs).zone 3).bind (·.climate) = none)
      ∧ (s (item 7 .detector 0x10#8 []) (node .detector 3) []).offers (item 7 .detector 0x10#8 []) 0x10#8 (node .detector 3)
      ∧ (s (item 7 .detector 0x10#8 []) (node .detector 3) []).zone 3 = none
      ∧ (∀ p ∈ [[1#8], [2#8], [3#8], [], [1#8, 2#8]], ∀ ls ∈ [[], [(7, { lock with door := .opened })], [(7, { lock with door := .closed })]],
          (door p ls).offers (item 7 .lock 0x30#8 p) 0x30#8 (node .lock 3))
      ∧ (door [1#8] []).lock 7 = none ∧ (door [2#8] [(7, { lock with door := .closed })]).lock 7 = some { lock with door := .closed } := by
  unfold State.offers; decide +kernel

/-- Each malformed telegram of a side, and the rows the courier's side does not give, at hatch 0. -/
theorem witness_OperatorBadgeJoinsTheExchange_malformed :
    let g : HandoverGroup := { hatch := .h0, lock := 52, staging := 9 }
    let r (k : Byte) (p : List Byte) := item 88 .hatchReader k p
    let c (k : Byte) (p : List Byte) := item 90 .courierTerminal k p
    let s (it : RingItem) := withRing [it] (hatch0 (exchange .scanning []))
    (∀ k ∈ [0x40#8, 0x41#8, 0x42#8, 0x43#8, 0x44#8], ∀ p ∈ [[1#8], [1#8, 2#8, 3#8, 0#8, 0#8, 0#8, 0#8]],
        (s (r k p)).offersTerminal (r k p) k .h0 .reader 14 g ∧ (s (c k p)).offersTerminal (c k p) k .h0 .courier 14 g)
      ∧ ([1#8] : List Byte).length ≠ 2 ∧ ([1#8] : List Byte).length ≠ 8
      ∧ (∀ d, ([1#8, 2#8, 3#8, 0#8, 0#8, 0#8, 0#8] : List Byte)[2]? = some d → d ≠ 0x01#8 ∧ d ≠ 0x02#8)
      ∧ ([1#8] : List Byte) ≠ [] := by
  refine ⟨fun k hk p hp => ⟨⟨terminal .hatchReader 14 .h0, ?_⟩, ⟨terminal .courierTerminal 14 .h0, ?_⟩⟩, by decide +kernel⟩
    <;> (unfold State.offers; revert k p; decide +kernel)

/-- A SCAN that repeats a listed cartridge, at a list of 48, of a flagged one, and of one that is not expected, in SCANNING
and in INTAKE, and outside both. -/
theorem witness_ScansFillTheListAndCloseEndsIt_refused :
    let it := item 88 .hatchReader 0x41#8 arc417
    let g : HandoverGroup := { hatch := .h0, lock := 52, staging := 9 }
    let l48 := (List.range 48).map (· + 1000)
    let s (st : EngineState) (l : List Nat) (c : Cartridge) : State :=
      { withRing [it] (hatch0 (exchange st l)) with cat := { cartridges := [(417, c)] } }
    let c := { cart arc417 130 .picked with order := some 311 }
    let held := { c with hold := true }
    let loose := cart arc417 130 .picked
    (∀ st ∈ [EngineState.scanning, .intake, .opened], ∀ l ∈ [[417], l48, []],
        ∀ x ∈ [c, held, loose, { loose with state := .away }],
          (s st l x).offersTerminal it 0x41#8 .h0 .reader 14 g ∧ (s st l x).indexOfLabel it.payload = some 417
            ∧ (s st l x).cartridge 417 = some x ∧ ((s st l x).engine .h0).state = st ∧ ((s st l x).engine .h0).list = l)
      ∧ 417 ∉ l48 ∧ 48 ≤ l48.length ∧ held.flagged = true ∧ loose.flagged = false ∧ loose.order = none
      ∧ (order311 .picked).courier = 5021 ∧ { exchange .scanning [] with courier := some 1 }.courier ≠ some 5021 := by
  refine ⟨fun st hs l hl x hx => ⟨⟨terminal .hatchReader 14 .h0, ?_⟩, ?_⟩, by decide +kernel⟩
  · unfold State.offers; revert st l x; decide +kernel
  · revert st l x; decide +kernel

/-- A fire event at an engine in each state, before and after the door has opened. -/
theorem witness_ExchangesEndIdle_fire :
    let c := { cart arc417 130 .inbound with courier := some 5021, hatch := some .h0 }
    let s (e : Engine) : State := { hatch0 e with cat := { cartridges := [(417, c)] } }
    let r (d : Bool) := { exchange .release [417] with openTimer := none, unlockTimer := some 5, doorOpened := d }
    (∀ st ∈ [EngineState.idle, .opened, .scanning, .confirm, .intake], ((s (exchange st [417])).engine .h0).state = st)
      ∧ (∀ d ∈ [true, false], ((s (r d)).engine .h0).state = .release ∧ ((s (r d)).engine .h0).doorOpened = d)
      ∧ (s (exchange .intake [417])).hatchZone .h0 = some (14, { hatch := .h0, lock := 52, staging := 9 })
      ∧ (s (exchange .intake [417])).cartridge 417 = some c
      ∧ (((s (exchange .intake [417])).engineFire .h0).cartridge 417).map (·.state) = some .staging
      ∧ (((s (exchange .intake [417])).engineFire .h0).engine .h0) = Engine.idle
      ∧ ((s (r true)).engineFire .h0) = s (r true) ∧ (((s (r false)).engineFire .h0).engine .h0) = Engine.idle := by
  decide +kernel

/-- The door closes on an inbound exchange under FIRE_ACTIVE, and in a CONFIRMED hatch zone. -/
theorem witness_DoorCompletesTheExchange_fire :
    let s := hatch0 { exchange .release [] with direction := some .inward, doorOpened := true, openTimer := none }
    let a : State := { s with fz := { s.fz with fireActive := true } }
    let b := withFire 14 .confirmed s
    (∀ u ∈ [a, b], (u.engine .h0).state = .release ∧ (u.engine .h0).direction = some .inward
        ∧ (u.engine .h0).doorOpened = true ∧ u.hatchZone .h0 = some (14, { hatch := .h0, lock := 52, staging := 9 })
        ∧ (u.engine .h0).list = [] ∧ Table.wf u.la.locks = true ∧ u.lock 52 = some lock
        ∧ (u.engineDoor .h0 .closed).engine .h0 = Engine.idle)
      ∧ a.fz.fireActive = true ∧ (b.fire 14).state = .confirmed ∧ b.fz.fireActive = false := by decide +kernel

/-- The door closes on an outbound exchange of one cartridge; one in the list of an inbound exchange in a fire. -/
theorem witness_DoorCompletesTheExchange_commits :
    let l := { lock with claims := { lock.claims with handover0 := true }, commanded := .unlocked, sent := .unlocked }
    let r (d : Direction) := { exchange .release [417] with direction := some d, doorOpened := true, openTimer := none }
    let s (d : Direction) : State := { hatch0 (r d) with la := { locks := [(52, l)] } }
    let f : State := { s .inward with fz := { (s .inward).fz with fireActive := true } }
    (∀ d ∈ [Direction.out, .inward], ((s d).engine .h0).state = .release ∧ ((s d).engine .h0).doorOpened = true
        ∧ ((s d).engine .h0).direction = some d ∧ (s d).lock 52 = some l ∧ ((s d).cartridge 417).isSome = true
        ∧ (s d).hatchZone .h0 = some (14, { hatch := .h0, lock := 52, staging := 9 })
        ∧ (((s d).engineDoor .h0 .closed).lock 52).map (·.claims) = some lock.claims)
      ∧ (((s .out).engineDoor .h0 .closed).cartridge 417).map (·.state) = some .away
      ∧ f.fz.fireActive = true ∧ ((f.engineDoor .h0 .closed).cartridge 417).map (·.state) = some .staging := by
  decide +kernel

/-- A hatch lock under FIRE_ACTIVE, with none, and a lock of a zone that counts down. -/
theorem witness_ClaimsDecideTheCommandedState_hold :
    let s := hatch0 Engine.idle
    let a : State := { s with fz := { s.fz with fireActive := true } }
    let b : State := { withFire 3 .countdown (withNodes [(52, node .lock 3)] boot) with la := { locks := [(52, lock)] } }
    (∀ u ∈ [s, a, b], u.lock 52 = some lock) ∧ a.fireHoldDue 52 = true ∧ s.fireHoldDue 52 = false ∧ b.fireHoldDue 52 = true
      ∧ (14, hatchZone .h0) ∈ s.zt.zones ∧ (hatchZone .h0).handover.map (·.lock) = some 52 ∧ b.zt.zones = []
      ∧ b.node 52 = some (node .lock 3) ∧ (b.fire 3).state = .countdown
      ∧ ((b.settleFireHold 52).lock 52).map (·.claims.fireHold) = some true := by decide +kernel

/-- The intake timer runs out on a list of one. -/
theorem witness_ExchangesEndIdle_intake :
    let e := { exchange .intake [417] with direction := some .inward, openTimer := none, intakeTimer := some 0 }
    let s := hatch0 e
    (s.engine .h0).intakeTimer = some 0 ∧ (s.engine .h0).list = [417] ∧ (s.cartridge 417).isSome = true
      ∧ s.hatchZone .h0 = some (14, { hatch := .h0, lock := 52, staging := 9 })
      ∧ ((after (.intakeTimerExpiry .h0) s).cartridge 417).map (·.state) = some .staging := by decide +kernel

/-- A head out of range while the latch is set; a table that is none, ORDERS, a length that is not the count's, a body
without a table id; with the latch clear and set. -/
theorem witness_LoadSegmentIsAppliedWholeOrNotAtAll_form :
    let f := [4#8, 0#8, 1#8, 1#8, 1#8, 3#8, 0#8, 5#8, 0x0A#8, 0#8]
    let s (latch : Bool) (b : List Byte) : State := told b { boot with ti := { boot.ti with latch := latch } }
    let g : Segment := { first := 16, count := 1, entries := [1#8, 1#8, 3#8, 0#8, 5#8], checksum := 10 }
    (s true []).judgeSegment .line g = some .range ∧ (s true []).ti.latch = true
      ∧ (∀ l ∈ [true, false], ∀ b ∈ [0x10#8 :: 7#8 :: f, 0x10#8 :: 0#8 :: f, 0x10#8 :: 4#8 :: f.dropLast, [0x10#8]],
          (s l b).hasTakenVerified (dir b) ∧ (s l b).ti.latch = l ∧ results (after .loadSegment (s l b)) = [.badForm])
      ∧ tableOf 7#8 = none ∧ tableOf 0#8 = none ∧ tableOf 4#8 = some .line ∧ parseSegment .line f.dropLast = none
      ∧ (after .loadSegment (s false [0x10#8])).ti.latch = false
      ∧ (after .loadSegment (s false (0x10#8 :: 7#8 :: f))).ti.latch = true := by decide +kernel

/-! ## Tests of the trunk's order, of the marks and of the bodies (R35, R187, R190, R202, R207) -/

/-- R38, R207: the fields of a QUERY_NODE reply follow the head, class and zone first; a place read back is told not empty. -/
theorem test_query_has_no_presence_byte :
    (ReplyBody.queried (node .detector 3)).bytes.take 2 = [2#8, 3#8]
      ∧ (ReplyBody.node (some (node .detector 3))).bytes.take 3 = [1#8, 2#8, 3#8] := by decide +kernel

/-- R187: the directive behind the one answered is taken within the same event, and reads the credential then. -/
theorem test_next_directive_taken :
    let s := told [0x04#8] boot
    let t : State := { s with ti := { s.ti with ingress := [dir [0x01#8], dir [0x05#8]] } }
    (after .readStatus t).ti.inHand = some (.deciding (dir [0x01#8]) (reading true boot.cs))
      ∧ (after .readStatus t).ti.ingress = [dir [0x05#8]] := by decide +kernel

/-- R202: the first frame after a reset is STARTUP, before a reply that waits. -/
theorem test_startup_first :
    let r : Reply := { tag := 0#16, code := 0x04#8, result := .ok, body := .empty, restarts := false }
    let s : State := { boot with ti := { boot.ti with replies := [r] } }
    ((after .trunkSendStart s).ti.notices = []) ∧ (after .trunkSendStart s).ti.sending ≠ some (.reply r) := by decide +kernel

/-- R35: a load of presence 0 where no entry stood leaves the mark; one that removes the entry clears it. -/
theorem test_unknown_mark :
    let marked (s : State) : State := { s with nt := { s.nt with unknownMarks := [5] } }
    ((marked boot).applyNode 5 none).nt.unknownMarks = [5]
      ∧ ((marked (withNodes [(5, node .probe 2)] boot)).applyNode 5 none).nt.unknownMarks = [] := by decide +kernel

/-- R81: a node that another zone names in the other role is a CONFLICT. -/
theorem test_node_named_in_two_roles :
    let s := withZones [(2, storage none)] (withNodes [(40, node .humidifier 2)] boot)
    s.judgeZone 3 (some { storage none with climate := some { climate2 with dehum := none, hum := some 40 } }) = some .conflict := by
  decide +kernel

/-- R71: an AUTO load over MANUAL marks the next decision, a load of a zone already AUTO does not. -/
theorem test_manual_to_auto :
    let m : ZoneEntry := { storage none with climate := some { climate2 with mode := .manual, dehum := none } }
    let a : ZoneEntry := { storage none with climate := some { climate2 with dehum := none } }
    (((withZones [(2, m)] boot).applyZone 2 (some a)).climate 2).fromNone = true
      ∧ (((withZones [(2, a)] boot).applyZone 2 (some a)).climate 2).fromNone = false := by decide +kernel

/-- R38, R207: the RANGE mark of a node that is no probe is absent, 0xFF; a probe's is a bit. -/
theorem test_range_mark_byte :
    (({ node .probe 2 with rangeMark := true }).bytes).getLast? = some 0x01#8
      ∧ ((node .lock 2).bytes).getLast? = some 0xFF#8 := by decide +kernel

/-- R190: the code CS held when TI took the directive is the one compared, though a code write ends before its row. -/
theorem test_code_as_taken :
    let old := [9#8, 2#8, 3#8, 4#8, 5#8, 6#8]
    let new := [1#8, 2#8, 3#8, 4#8, 5#8, 6#8]
    let s (c : List Byte) := after .codeWriteCompletion
      (told (0x02#8 :: c) { boot with cs := { code := old, checkOk := true, writing := some new } })
    (s new).cs.code = new ∧ results (after .checkCode (s new)) = [.mismatch]
      ∧ results (after .checkCode (s old)) = [.ok] := by decide +kernel

/-- R207: a run timer has 2 bytes in each state; a zone read back has 30, its absent nodes all ones. -/
theorem test_reply_fields_have_their_widths :
    (∀ t ∈ [RunTimer.running 60000, .stopped, .elapsed], t.bytes.length = 2)
      ∧ (storage none).bytes.length = 30
      ∧ ({ storage none with climate := some { climate2 with dehum := none } }).bytes[12]? = some 0xFF#8
      ∧ (hatchZone .h0).bytes.length = 30 := by decide +kernel

/-- R39: the filter judges the state at the taking: a zone that has gone into a fire before the row of the PASS_DOWN does not
refuse it, and one that was in a fire then refuses it though it is quiet since. -/
theorem test_filter_as_taken :
    let b := [0x40#8, 62#8, 200#8, 0#8]
    let quiet := withFire 6 .normal passing
    results (after .passDown (withFire 6 .confirmed (told b quiet))) = []
      ∧ (after .passDown (withFire 6 .confirmed (told b quiet))).lif.txq.map (·.dest) = [62]
      ∧ results (after .passDown (withFire 6 .normal (told b passing))) = [.badState] := by decide +kernel

/-- R29: an acceptance taken before the expiry restarts the timer, which does not expire. -/
theorem test_restarted_timer_does_not_expire :
    let s := receiving (withNodes [(12, { node .probe 2 with timer := some 0 })] boot)
    let heard := after (.telegramReceived (telegram 127#8 12#8 0x02#8 40#8 [])) s
    ((after (.intervalTimerExpiry 12) heard).node 12).map (·.sup) = some .ok
      ∧ ((after (.intervalTimerExpiry 12) s).node 12).map (·.sup) = some .suspect := by decide +kernel

end Sys2Proof.Tests
end

section
/-! PROOFS of the climate statements: what a sample makes of the filters (R62 to R66), of the climate record and of the
probe's entry (R67, R70, R71), and the acclimatization requirement (R76, R77). -/

namespace Sys2Proof.Machine

/-! ## Clamped readings (R62) -/

theorem clampInt_eq_max_min {lo hi : Int} (h : lo ≤ hi) (v : Int) : clampInt lo hi v = max lo (min hi v) := by
  unfold clampInt
  split
  · omega
  · split <;> omega

theorem clampRH_eq (v : Int) : clampRH v = max 0 (min 1000 v) := clampInt_eq_max_min (by decide) v

theorem clampT_eq (v : Int) : clampT v = max (-400) (min 850 v) := clampInt_eq_max_min (by decide) v

theorem clampRH_bounds (v : Int) : 0 ≤ clampRH v ∧ clampRH v ≤ 1000 := by
  rw [clampRH_eq]
  omega

theorem clampT_bounds (v : Int) : -400 ≤ clampT v ∧ clampT v ≤ 850 := by
  rw [clampT_eq]
  omega

/-! ## The filters (R64 to R66) -/

theorem Status.seeds_iff (st : Status) : st.seeds = true ↔ st = .unset ∨ st = .stale := by
  cases st <;> simp [Status.seeds]

/-- With a factor of at most 16, the truncated share of a difference lies between 0 and the difference. -/
theorem tdiv_share_between {k : Nat} (hk : k ≤ 16) (d : Int) :
    min 0 d ≤ Int.tdiv (d * k) 16 ∧ Int.tdiv (d * k) 16 ≤ max 0 d := by
  have hk' : (k : Int) ≤ 16 := by exact_mod_cast hk
  have hk0 : (0 : Int) ≤ k := Int.natCast_nonneg k
  rcases le_total 0 d with hd | hd
  · have lower : 0 ≤ d * k := mul_nonneg hd hk0
    have upper : d * k ≤ d * 16 := mul_le_mul_of_nonneg_left hk' hd
    rw [Int.tdiv_eq_ediv_of_nonneg lower]
    omega
  · have lower : 0 ≤ -d * k := mul_nonneg (by omega) hk0
    have upper : -d * k ≤ -d * 16 := mul_le_mul_of_nonneg_left hk' (by omega)
    rw [← neg_neg d, neg_mul, Int.neg_tdiv, Int.tdiv_eq_ediv_of_nonneg lower]
    omega

/-- A step of the filter leaves the accumulator in any range that holds it and the reading's target: it moves
from the one towards the other and never past it. -/
theorem filterStep_bounds {k : Nat} (hk : k ≤ 16) {lo hi acc r : Int} (ha : lo ≤ acc ∧ acc ≤ hi)
    (hr : lo ≤ 16 * r ∧ 16 * r ≤ hi) : lo ≤ filterStep k acc r ∧ filterStep k acc r ≤ hi := by
  have share := tdiv_share_between hk (16 * r - acc)
  unfold filterStep
  omega

theorem nextAcc_eq (st : Status) (k : Nat) (acc r : Int) :
    nextAcc st k acc r = if st = .unset ∨ st = .stale then 16 * r else acc + Int.tdiv ((16 * r - acc) * k) 16 :=
  if_congr (Status.seeds_iff st) rfl rfl

theorem nextAcc_bounds (st : Status) {k : Nat} (hk : k ≤ 16) {lo hi acc r : Int} (ha : lo ≤ acc ∧ acc ≤ hi)
    (hr : lo ≤ 16 * r ∧ 16 * r ≤ hi) : lo ≤ nextAcc st k acc r ∧ nextAcc st k acc r ≤ hi := by
  unfold nextAcc
  split
  · exact hr
  · exact filterStep_bounds hk ha hr

/-- An accumulator between the 16-folds of two values is reported between the two (R66). -/
theorem reported_bounds {lo hi acc : Int} (h : 16 * lo ≤ acc ∧ acc ≤ 16 * hi) :
    lo ≤ reported acc ∧ reported acc ≤ hi := by
  unfold reported
  rw [Int.fdiv_eq_ediv_of_nonneg _ (by decide)]
  omega

/-- Settles O24: each accumulator starts and is driven within its range, so it ends there, and its reported value with
it. -/
theorem filterStaysInRange : Obligations.FilterStaysInRange := by
  intro c g rh t _ hk acc0 acc1 accT0 accT1
  have rhB := clampRH_bounds rh
  have tB := clampT_bounds t
  have accB : 0 ≤ (c.sampled g rh t).acc ∧ (c.sampled g rh t).acc ≤ 16000 :=
    nextAcc_bounds c.status hk ⟨acc0, acc1⟩ (by omega)
  have accTB : -6400 ≤ (c.sampled g rh t).accT ∧ (c.sampled g rh t).accT ≤ 13600 :=
    nextAcc_bounds c.status hk ⟨accT0, accT1⟩ (by omega)
  exact ⟨rfl, rfl, accB.1, accB.2, accTB.1, accTB.2,
    ⟨_, rfl, reported_bounds accB⟩, ⟨_, rfl, reported_bounds accTB⟩⟩

/-! ## The acclimatization requirement (R76, R77) -/

/-- The minutes are the least number that tenfold reaches the product: the division rounded up. -/
theorem acclimMinutes_bounds (d rate : Nat) :
    10 * acclimMinutes d rate < d * rate + 10 ∧ d * rate ≤ 10 * acclimMinutes d rate := by
  unfold acclimMinutes
  omega

theorem State.acclimRequirement_of_seeds {s : State} {z : Nat} (h : (s.climate z).status.seeds = true)
    (tcase : Option Int) : s.acclimRequirement z tcase = 2880 := by
  unfold State.acclimRequirement
  rcases (Status.seeds_iff _).1 h with e | e <;> simp only [e]

theorem State.acclimRequirement_of_measured {s : State} {z : Nat} {ze : ZoneEntry} {g : StagingGroup} {f : Int}
    (h : (s.climate z).status.seeds = false) (hz : s.zone z = some ze) (hg : ze.staging = some g)
    (hf : (s.climate z).fT = some f) (tcase : Option Int) :
    s.acclimRequirement z tcase =
      min (g.amin + acclimMinutes (tcase.elim 0 fun t => (clampT t - f).natAbs) g.rate) 2880 := by
  unfold State.acclimRequirement
  simp only [hz, hg, hf, Option.bind_some, Option.getD_some]
  cases e : (s.climate z).status with
  | unset => simp [e, Status.seeds] at h
  | stale => simp [e, Status.seeds] at h
  | inBand | high | low => cases tcase <;> rfl

/-- Settles O26: the full 2880 where a sample would seed, the formula under its cap everywhere else. -/
theorem acclimatizationRequirement : Obligations.AcclimatizationRequirement := by
  intro s z tcase ze g f hz hg hf d
  cases h : (s.climate z).status.seeds with
  | true =>
    have full := State.acclimRequirement_of_seeds h tcase
    refine ⟨full.le, fun _ => full, fun notUnset notStale => ?_⟩
    exact absurd ((Status.seeds_iff _).1 h) (not_or.2 ⟨notUnset, notStale⟩)
  | false =>
    have measured : ¬ ((s.climate z).status = .unset ∨ (s.climate z).status = .stale) := by
      rw [← Status.seeds_iff, h]
      decide
    have difference : (tcase.elim 0 fun t => (clampT t - f).natAbs) = d := by
      cases tcase with
      | none => rfl
      | some t => exact congrArg (fun v => (v - f).natAbs) (clampT_eq t)
    have formula : s.acclimRequirement z tcase = min (g.amin + acclimMinutes d g.rate) 2880 := by
      rw [State.acclimRequirement_of_measured h hz hg (hf (not_or.1 measured).1), difference]
    have ⟨below, reached⟩ := acclimMinutes_bounds d g.rate
    exact ⟨formula ▸ min_le_right _ _, fun e => absurd e measured, fun _ _ => ⟨_, below, reached, formula⟩⟩

/-! ## Reads of the node table and of the climate records -/

@[simp] theorem State.node_setNode_same (s : State) (a : Nat) (e : NodeEntry) : (s.setNode a e).node a = some e :=
  Table.get_put_same _ _ _

theorem State.node_setNode_other (s : State) {a b : Nat} (e : NodeEntry) (n : b ≠ a) :
    (s.setNode a e).node b = s.node b :=
  Table.get_put_other _ _ n

theorem State.shaped_climate_length {s : State} (h : s.shaped = true) : s.cu.climate.length = 16 := by
  simp only [State.shaped, Bool.and_eq_true, decide_eq_true_eq] at h
  tauto

theorem State.climate_setClimate_same {s : State} {z : Nat} (h : z < s.cu.climate.length) (c : Climate) :
    (s.setClimate z c).climate z = c := by
  simp [State.climate, h]

theorem State.climate_setClimate_other (s : State) {z y : Nat} (c : Climate) (n : y ≠ z) :
    (s.setClimate z c).climate y = s.climate y := by
  simp [State.climate, List.getElem?_set_ne (Ne.symm n)]

@[simp] theorem State.climate_postClimate (s : State) (z : Nat) (b : Status) (y : Nat) :
    (s.postClimate z b).climate y = s.climate y := by
  simp [State.climate]

@[simp] theorem State.climate_demandReport (s : State) (z y : Nat) : (s.demandReport z).climate y = s.climate y := by
  simp [State.climate]

@[simp] theorem State.climate_setNode (s : State) (a : Nat) (e : NodeEntry) (y : Nat) :
    (s.setNode a e).climate y = s.climate y := rfl

/-! ## A taken sample (R61 to R71) -/

/-- The record a taken sample leaves: filters stepped, status judged, stale timer restarted, the demand decided from the
held one on the new fRH (R63). -/
theorem State.climate_takeSample_same {s : State} {z : Nat} (h : z < s.cu.climate.length) (g : ClimateGroup)
    (rh t : Int) :
    (s.takeSample z g rh t).climate z
      = { (s.climate z).sampled g rh t with
          demand := decideDemand g (s.climate z).heldDemand
            (reported (nextAcc (s.climate z).status g.k (s.climate z).acc (clampRH rh)))
          fromNone := false } := by
  unfold State.takeSample State.setDemand
  simp only [State.climate_demandReport, State.climate_postClimate]
  rw [State.climate_setClimate_same (by simpa using h), State.climate_setClimate_same h]
  rfl

theorem State.climate_takeSample_other (s : State) {z y : Nat} (n : y ≠ z) (g : ClimateGroup) (rh t : Int) :
    (s.takeSample z g rh t).climate y = s.climate y := by
  unfold State.takeSample State.setDemand
  simp only [State.climate_demandReport, State.climate_setClimate_other _ _ n, State.climate_postClimate]

theorem State.node_takeSample (s : State) (z : Nat) (g : ClimateGroup) (rh t : Int) (a : Nat) :
    (s.takeSample z g rh t).node a = s.node a := by
  simp [State.node]

theorem parseSample_eq_none {p : List Byte} (h : p.length ≠ 4) : parseSample p = none := by
  unfold parseSample
  split
  · exact absurd rfl h
  · rfl

/-- R61: a SAMPLE is discarded where the node is no PROBE, its length is not 4 or its zone has no climate group. -/
theorem State.sampleOf_discarded {s : State} {src : Nat} {p : List Byte} {e : NodeEntry} (hn : s.node src = some e)
    (h : e.cls ≠ .probe ∨ p.length ≠ 4 ∨ s.climateGroup e.zone = none) : s.sampleOf src p = s := by
  unfold State.sampleOf
  rw [hn]
  rcases h with noProbe | length | noGroup
  · exact if_neg noProbe
  · simp [parseSample_eq_none length]
  · simp [noGroup]

theorem State.sampleOf_taken {s : State} {src : Nat} {p : List Byte} {e : NodeEntry} {g : ClimateGroup} {rh t : Int}
    (hn : s.node src = some e) (hc : e.cls = .probe) (hg : s.climateGroup e.zone = some g)
    (hp : parseSample p = some (rh, t)) :
    s.sampleOf src p = (s.setNode src (e.ranged rh t)).takeSample e.zone g rh t := by
  unfold State.sampleOf
  simp only [hn, hc, hg, hp, if_true]

theorem exec_sample_of_offers {s : State} {it : RingItem} {e : NodeEntry} (h : s.offers it 0x02#8 e) :
    exec .sample s = .next (s.popRing.sampleOf it.src it.payload) :=
  congrArg Host.Outcome.next (State.takeHead_offers h _)

theorem State.climateGroup_eq_none {s : State} {z : Nat} (h : ∀ ze, s.zone z = some ze → ze.climate = none) :
    s.climateGroup z = none := by
  unfold State.climateGroup
  cases e : s.zone z with
  | none => rfl
  | some ze => exact h ze e

theorem State.offers.node_eq {s : State} {it : RingItem} {kind : Byte} {e : NodeEntry} (h : s.offers it kind e) :
    s.node it.src = some e := h.2.2.2

/-- Settles O23: a discarded SAMPLE only leaves the ring; a taken one is `sampleOf_taken`, whose record, marks and frame
the lemmas above give. -/
theorem sampleStepsTheClimate : Obligations.SampleStepsTheClimate := by
  refine ⟨fun s it e offered discarded => ?_, ?_⟩
  · rw [exec_sample_of_offers offered, State.sampleOf_discarded (s := s.popRing) offered.node_eq]
    exact discarded.imp_right (Or.imp_right State.climateGroup_eq_none)
  · intro s it e g rh t shaped offered probe zone group parsed c seed rh' t' acc accT f
    have taken := State.sampleOf_taken (s := s.popRing) offered.node_eq probe group parsed
    have place : e.zone < (s.popRing.setNode it.src (e.ranged rh t)).cu.climate.length :=
      zone.trans_eq (State.shaped_climate_length shaped).symm
    refine ⟨_, (exec_sample_of_offers offered).trans (congrArg _ taken),
      ?record, ?zones, ?probe, ?nodes, ?_, ?_, ?_, ?_, ?_⟩
    case record =>
      have humidity : nextAcc c.status g.k c.acc (clampRH rh) = acc := by
        rw [clampRH_eq]
        exact nextAcc_eq _ _ _ _
      have temperature : nextAcc c.status g.k c.accT (clampT t) = accT := by
        rw [clampT_eq]
        exact nextAcc_eq _ _ _ _
      have before : (s.popRing.setNode it.src (e.ranged rh t)).climate e.zone = c := rfl
      rw [State.climate_takeSample_same place, before, humidity]
      unfold Climate.sampled decideDemand
      simp only [humidity, temperature]
      cases g.mode <;> rfl
    case zones =>
      intro z other
      rw [State.climate_takeSample_other _ other]
      rfl
    case probe =>
      rw [State.node_takeSample, State.node_setNode_same, NodeEntry.ranged, clampRH_eq, clampT_eq]
    case nodes =>
      intro a other
      rw [State.node_takeSample, State.node_setNode_other _ _ other, State.popRing_node]
    all_goals
      simp only [State.takeSample_frame, State.setNode_frame]
      rfl

end Sys2Proof.Machine
end

section
/-! PROOFS of the catalogue statements: what an INSPECT_CLEAR makes of a record (R141), and what a slot event makes of the
records, the orders, the engines' lists and the held counts (R127 to R133, R149, R157). -/

namespace Sys2Proof.Machine

/-! ## A directive under decision (R187, R189, R192) -/

/-- A directive whose taking read VERIFIED is decided by the row of its code, and TI takes the next. -/
theorem State.takeDirective_verified {s : State} {d : Directive} {mine : List Byte → Bool} (h : s.hasTakenVerified d)
    (hm : mine d.body = true) (notRestart : d.body.head? ≠ some codeRestart) (opened : Bool)
    (act : Directive → State → State) : s.takeDirective mine opened act = (act d s.taken).takeNext := by
  obtain ⟨read, hand, verified⟩ := (s.underDecision_iff d true).1 h
  unfold State.takeDirective
  rw [hand]
  dsimp only
  rw [if_pos hm, verified, Bool.or_true, if_pos rfl, if_neg notRestart]
  rfl

theorem State.formed_of_length {s : State} {d : Directive} {size : Nat} (h : d.body.length = size)
    (act : List Byte → State) : s.formed d size act = act (d.body.drop 1) := if_pos h

/-! ## INSPECT_CLEAR (R141) -/

/-- What the row of INSPECT_CLEAR answers to a label once the directive has its form. -/
def State.answerInspectClear (s : State) (d : Directive) (l : Label) : State :=
  if !labelOk l then s.reply d .range .empty
  else match s.indexOfLabel l with
    | none => s.reply d .notFound .empty
    | some i =>
      match s.cartridge i with
      | none => s.reply d .notFound .empty
      | some c =>
        if c.state = .away ∨ c.state = .inbound ∨ c.state = .manifested then s.reply d .badState .empty
        else (s.clearInspect i c).reply d .ok .empty

theorem exec_inspectClear_of_taken {s : State} {d : Directive} {l : Label} (h : s.hasTakenVerified d)
    (size : l.length = 8) (body : d.body = 0x22#8 :: l) :
    exec .inspectClear s = .next (s.taken.answerInspectClear d l).takeNext := by
  have code : hasCode 0x22#8 d.body = true := by simp [hasCode, body]
  have notRestart : d.body.head? ≠ some codeRestart := by simp [body, codeRestart]
  have length : d.body.length = 9 := by simp [body, size]
  refine congrArg Host.Outcome.next ((State.takeDirective_verified h code notRestart false _).trans ?_)
  rw [State.formed_of_length length, body]
  rfl

theorem State.labelOk_of_indexOfLabel {s : State} {l : Label} {i : Nat} (h : s.indexOfLabel l = some i) :
    labelOk l = true := by
  unfold State.indexOfLabel at h
  split at h
  · assumption
  · cases h

section
variable {s : State} {d : Directive} {l : Label}

theorem State.answerInspectClear_range (h : labelOk l = false) :
    s.answerInspectClear d l = s.reply d .range .empty := by
  simp [State.answerInspectClear, h]

theorem State.answerInspectClear_notFound (h : labelOk l = true) (hi : s.indexOfLabel l = none) :
    s.answerInspectClear d l = s.reply d .notFound .empty := by
  simp [State.answerInspectClear, h, hi]

theorem State.answerInspectClear_found {i : Nat} {c : Cartridge} (hi : s.indexOfLabel l = some i)
    (hc : s.cartridge i = some c) :
    s.answerInspectClear d l = if c.state = .away ∨ c.state = .inbound ∨ c.state = .manifested
      then s.reply d .badState .empty else (s.clearInspect i c).reply d .ok .empty := by
  simp [State.answerInspectClear, State.labelOk_of_indexOfLabel hi, hi, hc]

end

/-- Settles O39: the three refusals in the order of their checks, and `clearInspect` where none applies. -/
theorem inspectClearReturnsToCirculation : Obligations.InspectClearReturnsToCirculation := by
  intro s d l taken size body s1
  rw [exec_inspectClear_of_taken taken size body]
  refine ⟨fun outside => ?_, fun inside unknown => ?_, fun i c found record => ⟨fun moving => ?_, ?_⟩⟩
  · rw [State.answerInspectClear_range outside]
    rfl
  · rw [State.answerInspectClear_notFound (s := s.taken) inside unknown]
    rfl
  · rw [State.answerInspectClear_found (s := s.taken) found record, if_pos moving]
    rfl
  · intro notAway notInbound notManifested
    rw [State.answerInspectClear_found (s := s.taken) found record, if_neg (by simp [notAway, notInbound, notManifested])]
    rfl

/-! ## A slot event at the head of the ring (R127) -/

theorem exec_slotEvent_of_offers {s : State} {it : RingItem} {e : NodeEntry} (idle : s.catBusy = false)
    (h : s.offers it 0x20#8 e) : exec .slotEvent s = .next (s.popRing.slotEventOf it.src it.payload) := by
  have taken : execSlotEvent s = .next (s.takeHead kindSlotEvent fun it s1 => s1.slotEventOf it.src it.payload) := by
    simp [execSlotEvent, idle]
  exact taken.trans (congrArg Host.Outcome.next (State.takeHead_offers h _))

section
variable {s : State} {src : Nat} {p : List Byte} {e : NodeEntry}

theorem State.slotEventOf_otherClass (hn : s.node src = some e) (hc : e.cls ≠ .slotStrip) : s.slotEventOf src p = s := by
  simp [State.slotEventOf, hn, hc]

theorem State.slotEventOf_malformed (hp : parseSlotEvent p = none) : s.slotEventOf src p = s := by
  unfold State.slotEventOf
  simp only [hp]
  split
  · rfl
  · split <;> rfl

theorem State.slotEventOf_emptied {b off : Nat} (hn : s.node src = some e) (hc : e.cls = .slotStrip)
    (hb : e.slotBase = some b) (hp : parseSlotEvent p = some (.emptied off)) :
    s.slotEventOf src p = s.slotEmptied e.zone (b + off) := by
  simp [State.slotEventOf, hn, hc, hb, hp]

theorem State.slotEventOf_occupied {b off : Nat} {l : Label} (hn : s.node src = some e) (hc : e.cls = .slotStrip)
    (hb : e.slotBase = some b) (hp : parseSlotEvent p = some (.occupied off l)) :
    s.slotEventOf src p = s.slotOccupied src e.zone (b + off) l := by
  simp [State.slotEventOf, hn, hc, hb, hp]

end

/-! ## EMPTY (R128) -/

section
variable {s : State} {z slot i : Nat} {c : Cartridge}

theorem State.slotEmptied_noHome (hi : s.indexOfSlot z slot = none) : s.slotEmptied z slot = s := by
  simp [State.slotEmptied, hi]

theorem State.slotEmptied_shelved (hi : s.indexOfSlot z slot = some i) (hc : s.cartridge i = some c)
    (hs : c.state = .shelved) :
    s.slotEmptied z slot = (s.setCartridge i { c with state := .missing }).postCartridge i .shelved
      { c with state := .missing } c.courier .removed := by
  simp [State.slotEmptied, hi, hc, hs]

theorem State.slotEmptied_ordered {n : Nat} (hi : s.indexOfSlot z slot = some i) (hc : s.cartridge i = some c)
    (hs : c.state = .ordered) (ho : c.order = some n) :
    s.slotEmptied z slot = ((s.setCartridge i { c with state := .picked }).moveOrder n .picked).postCartridge i .ordered
      { c with state := .picked } c.courier .picked := by
  simp [State.slotEmptied, hi, hc, hs, ho]

theorem State.slotEmptied_kept (hi : s.indexOfSlot z slot = some i) (hc : s.cartridge i = some c)
    (notShelved : c.state ≠ .shelved) (notOrdered : c.state ≠ .ordered) : s.slotEmptied z slot = s := by
  cases hs : c.state with
  | shelved => exact absurd hs notShelved
  | ordered => exact absurd hs notOrdered
  | picked | manifested | away | inbound | staging | ready | missing => simp [State.slotEmptied, hi, hc, hs]

end

/-! ## OCCUPIED (R129 to R133) -/

section
variable {s : State} {strip z slot i : Nat} {l : Label} {c : Cartridge}

theorem State.slotOccupied_foreign (hi : s.indexOfLabel l = none) :
    s.slotOccupied strip z slot l = s.post (.foreign strip z slot l) := by
  simp [State.slotOccupied, hi]

theorem State.slotOccupied_misfiled (hi : s.indexOfLabel l = some i) (hc : s.cartridge i = some c)
    (elsewhere : c.homeZone ≠ z ∨ c.homeSlot ≠ slot) :
    s.slotOccupied strip z slot l = s.post (.misfiled strip z slot l i c.homeZone c.homeSlot c.state) := by
  have notHome : ¬ (c.homeZone = z ∧ c.homeSlot = slot) := by rwa [not_and_or]
  simp only [State.slotOccupied, hi, hc, if_neg notHome]

theorem State.slotOccupied_home (hi : s.indexOfLabel l = some i) (hc : s.cartridge i = some c)
    (zone : c.homeZone = z) (place : c.homeSlot = slot) : s.slotOccupied strip z slot l = s.backHome i c := by
  simp [State.slotOccupied, hi, hc, zone, place]

theorem State.backHome_kept (h : c.state = .shelved ∨ c.state = .ordered) : s.backHome i c = s := by
  rcases h with h | h <;> simp [State.backHome, h]

theorem State.backHome_reshelved (h : (c.state = .picked ∧ c.order = none) ∨ c.state = .ready ∨ c.state = .missing) :
    s.backHome i c = s.reshelve i c := by
  rcases h with ⟨h, loose⟩ | h | h
  · simp [State.backHome, h, loose]
  · simp [State.backHome, h]
  · simp [State.backHome, h]

theorem State.backHome_staging (h : c.state = .staging) : s.backHome i c = s.shelveEarly i c := by
  simp [State.backHome, h]

theorem State.backHome_away (h : c.state = .away) :
    s.backHome i c = ((s.lowerHeldOf c.courier).setCartridge i { c.shelve with inspect := true }).postCartridge i c.state
      { c.shelve with inspect := true } c.courier .returnedIrregular := by
  simp [State.backHome, State.shelveIrregular, h]

theorem State.backHome_inbound (h : c.state = .inbound) :
    s.backHome i c = (((s.dropFromList c.hatch i).lowerHeldOf c.courier).setCartridge i
      { c.shelve with inspect := true }).postCartridge i c.state { c.shelve with inspect := true } c.courier
        .returnedIrregular := by
  simp [State.backHome, State.shelveIrregular, h]

theorem State.backHome_picked {n : Nat} (h : c.state = .picked) (ho : c.order = some n) :
    s.backHome i c = s.reorder i c n := by
  simp [State.backHome, h, ho]

theorem State.backHome_manifested {n : Nat} (h : c.state = .manifested) (ho : c.order = some n) :
    s.backHome i c = (s.dropFromList c.hatch i).reorder i c n := by
  simp [State.backHome, h, ho]

end

/-! ## Orders (R155, R157) -/

theorem State.order_number {s : State} {n : Nat} {o : Order} (h : s.order n = some o) : o.number = n := by
  simpa using List.find?_some h

theorem State.order_setOrder_same {s : State} {n : Nat} {o : Order} (h : s.order n = some o) {o' : Order}
    (same : o'.number = n) : (s.setOrder o').order n = some o' := by
  have number (p : Order) : (if p.number = o'.number then o' else p).number = p.number := by
    split
    · next e => exact e.symm
    · rfl
  have found : s.ol.orders.find? (fun p => decide (p.number = n)) = some o := h
  have replaced : (if o.number = o'.number then o' else o) = o' := if_pos ((State.order_number h).trans same.symm)
  rw [State.order, State.setOrder_orders, List.find?_map]
  simp only [Function.comp_def, number, found, Option.map_some, replaced]

/-- No class lies below that of the displays, so a display's telegram takes no other's place (R21). -/
theorem evictee_display (q : List TxItem) : evictee q .display = none := by
  have noCandidate : q.filter (evictable .display) = [] := by
    simp [evictable, TxClass.rank]
  simp [evictee, noCandidate]

/-- A PICK_WITHDRAW is placed or refused, and no order changes by it (R21, R155). -/
theorem State.requestTx_withdraw_ol (s : State) (display n : Nat) :
    (s.requestTx (withdrawRequest display n)).ol = s.ol := by
  unfold State.requestTx
  split
  · rfl
  · rw [show (withdrawRequest display n).cls = .display from rfl, evictee_display]
    rfl

theorem State.order_congr {s t : State} (h : t.ol = s.ol) (n : Nat) : t.order n = s.order n := by
  unfold State.order
  rw [h]

theorem State.settlePick_order {s : State} {n : Nat} {o : Order} (h : s.order n = some o) :
    ∃ p, (s.settlePick n).order n = some { o with pick := p } := by
  have number : o.number = n := State.order_number h
  unfold State.settlePick
  simp only [h]
  cases hp : o.pick with
  | shown d =>
    refine ⟨.notSent, ?_⟩
    rw [State.order_congr (State.requestTx_withdraw_ol _ d n)]
    exact State.order_setOrder_same h number
  | undelivered => exact ⟨.notSent, State.order_setOrder_same h number⟩
  | inFlight => exact ⟨.inFlight, by rw [h, ← hp]⟩
  | notSent => exact ⟨.notSent, by rw [h, ← hp]⟩

theorem State.moveOrder_order {s : State} {n : Nat} {o : Order} (h : s.order n = some o) (st : OrderState) :
    ∃ o', (s.moveOrder n st).order n = some o' ∧ o'.state = st := by
  have number : o.number = n := State.order_number h
  have moved : (s.setOrder { o with state := st }).order n = some { o with state := st } :=
    State.order_setOrder_same h number
  unfold State.moveOrder
  simp only [h]
  split
  · obtain ⟨p, settled⟩ := State.settlePick_order moved
    exact ⟨_, settled, rfl⟩
  · exact ⟨_, moved, rfl⟩

theorem State.requestTx_of_room {s : State} (room : s.lif.txq.length < 24) (r : TxRequest) :
    s.requestTx r = s.placeTx r := if_pos room

theorem State.releaseOrder_order {s : State} {n : Nat} {o : Order} (h : s.order n = some o)
    (room : s.lif.txq.length < 24) : ∃ o', (s.releaseOrder n).order n = some o' ∧ o'.state = .released := by
  have number : o.number = n := State.order_number h
  have told (p : Pick) : (s.setOrder { o with state := .released, pick := p }).order n
      = some { o with state := .released, pick := p } := State.order_setOrder_same h number
  have queued (p : Pick) (r : TxRequest) :
      ((s.setOrder { o with state := .released, pick := p }).requestTx r).order n
        = some { o with state := .released, pick := p } := by
    rw [State.requestTx_of_room (by simpa using room)]
    exact told p
  unfold State.releaseOrder
  simp only [h]
  cases o.pick with
  | inFlight => exact ⟨_, State.order_setOrder_same h number, rfl⟩
  | shown d => exact ⟨_, told _, rfl⟩
  | notSent | undelivered =>
    dsimp only
    split
    · exact ⟨_, queued _ _, rfl⟩
    · exact ⟨_, told _, rfl⟩

theorem State.orderBackInSlot_order {s : State} {n : Nat} {o : Order} (h : s.order n = some o)
    (room : s.lif.txq.length < 24) :
    ∃ o', (s.orderBackInSlot n).order n = some o'
      ∧ o'.state = if s.orderHeld o then .waiting else .released := by
  have number : o.number = n := State.order_number h
  unfold State.orderBackInSlot
  simp only [h]
  split
  · exact ⟨_, State.order_setOrder_same h number, rfl⟩
  · exact State.releaseOrder_order h room

theorem State.orderHeld_of_cartridge {s : State} {o : Order} {c : Cartridge} (h : s.cartridge o.index = some c) :
    s.orderHeld o = (s.fire c.homeZone).state.holdsOrders := by
  simp [State.orderHeld, State.orderZone, h]

/-- An ordered cartridge back in its slot: the record is ORDERED again, and its zone says how its order stands
(R130, R157). -/
theorem State.reorder_spec {s : State} {i n : Nat} {c : Cartridge} {o : Order} (h : s.order n = some o)
    (index : o.index = i) (room : s.lif.txq.length < 24) :
    (s.reorder i c n).cartridge i = some { c with state := .ordered, hatch := none }
      ∧ ∃ o', (s.reorder i c n).order n = some o'
        ∧ o'.state = if (s.fire c.homeZone).state.holdsOrders then .waiting else .released := by
  let c' : Cartridge := { c with state := .ordered, hatch := none }
  let t : State := (s.setCartridge i c').postCartridge i c.state c' c'.courier .reshelved
  have record : t.cartridge i = some c' := Table.get_put_same _ i c'
  have held : t.orderHeld o = (s.fire c.homeZone).state.holdsOrders :=
    State.orderHeld_of_cartridge (c := c') (index ▸ record)
  refine ⟨?_, held ▸ State.orderBackInSlot_order (s := t) h room⟩
  have keepsRecords : (t.orderBackInSlot n).cat = t.cat := by simp
  exact (congrArg (fun cat : Cat => Table.get cat.cartridges i) keepsRecords).trans record

/-! ## The engines' lists and an ordered cartridge back home (R130, R132, R183) -/

theorem Engine.without_list (e : Engine) (i : Nat) : (e.without i).list = e.list.filter (· ≠ i) := by
  unfold Engine.without
  dsimp only
  split <;> rfl

theorem State.engine_reorder (s : State) (i : Nat) (c : Cartridge) (n : Nat) (h : Hatch) :
    (s.reorder i c n).engine h = s.engine h := by
  cases h <;> simp [State.engine]

theorem State.list_dropFromList (s : State) (h : Hatch) (i : Nat) :
    ((s.dropFromList (some h) i).engine h).list = (s.engine h).list.filter (· ≠ i) := by
  rw [State.dropFromList, State.engine_setEngine_same, Engine.without_list]

/-- A PICKED or MANIFESTED record with an order, back at its home slot: ORDERED again with its order, and a MANIFESTED one
out of its engine's list (R130, R132, R157). -/
theorem State.backHome_withOrder {s : State} {i n : Nat} {c : Cartridge} {o : Order}
    (moving : c.state = .picked ∨ c.state = .manifested) (names : c.order = some n) (listed : s.order n = some o)
    (index : o.index = i) (room : s.lif.txq.length < 24) :
    (s.backHome i c).cartridge i = some { c with state := .ordered, hatch := none }
      ∧ (∃ o', (s.backHome i c).order n = some o'
        ∧ o'.state = if (s.fire c.homeZone).state.holdsOrders then .waiting else .released)
      ∧ ∀ h, c.state = .manifested → c.hatch = some h →
        ((s.backHome i c).engine h).list = (s.engine h).list.filter (· ≠ i) := by
  rcases moving with picked | manifested
  · rw [State.backHome_picked picked names]
    obtain ⟨ordered, back⟩ := State.reorder_spec (c := c) listed index room
    exact ⟨ordered, back, fun h manifested => absurd (picked.symm.trans manifested) (by decide)⟩
  · rw [State.backHome_manifested manifested names]
    have order : (s.dropFromList c.hatch i).order n = some o := (State.order_congr (by simp) n).trans listed
    have fire : (s.dropFromList c.hatch i).fire c.homeZone = s.fire c.homeZone := State.fire_congr (by simp) _
    obtain ⟨ordered, back⟩ := State.reorder_spec (c := c) order index (by simpa using room)
    refine ⟨ordered, fire ▸ back, fun h _ hatch => ?_⟩
    rw [State.engine_reorder, hatch, State.list_dropFromList]

/-! ## Held counts (R149) -/

/-- An entry replaced by one that meets the test as it did leaves the first place found. -/
theorem Table.findKey_put {α : Type} {t : Table α} {k : Nat} {a b : α} {p : Nat → α → Bool} (w : Table.wf t = true)
    (g : Table.get t k = some a) (same : p k b = p k a) : Table.findKey (Table.put t k b) p = Table.findKey t p := by
  induction t with
  | nil => cases g
  | cons q t ih =>
    obtain ⟨i, x⟩ := q
    rw [Table.wf_cons] at w
    by_cases here : i = k
    · subst here
      have head : x = a := by simpa [Table.get] using g
      subst head
      cases meets : p i x <;> simp [Table.put, Table.findKey, meets, same]
    · have later : Table.get t k = some a := by simpa [Table.get, here] using g
      have below : i < k := w.1 _ (Table.get_mem later)
      have rest := ih w.2 later
      rw [Table.put, if_neg (by omega), if_neg (Ne.symm here)]
      unfold Table.findKey at rest ⊢
      cases meets : p i x with
      | true => simp [meets]
      | false => simpa [meets] using rest

theorem State.heldCount_changeHeld {u : State} {id k : Nat} {p : Party} {f : CourierFields} {g : Nat → Nat}
    (hk : u.partyKey id = some k) (hp : Table.get u.pt.parties k = some p) (hf : p.courier = some f)
    (w : Table.wf u.pt.parties = true) : (u.changeHeld id g).heldCount id = g f.held := by
  let q : Party := { p with courier := some { f with held := g f.held } }
  have parties : (u.changeHeld id g).pt.parties = Table.put u.pt.parties k q := by
    simp [State.changeHeld, hk, hp, hf, q]
  have key : (u.changeHeld id g).partyKey id = some k := by
    rw [State.partyKey, parties]
    exact (Table.findKey_put (b := q) w hp rfl).trans hk
  simp [State.heldCount, State.party, key, parties, q]

/-! ## The statement -/

/-- Settles O36: the event is brought to `slotEmptied` or `slotOccupied` once, and each clause is the branch of its
state. -/
theorem slotEventsFollowTheCartridge : Obligations.SlotEventsFollowTheCartridge := by
  refine ⟨fun s it e idle offered other => ?_, fun s it e base off idle offered strip based => ?_⟩
  · rw [exec_slotEvent_of_offers idle offered, State.slotEventOf_otherClass (s := s.popRing) offered.node_eq other]
  have event := exec_slotEvent_of_offers idle offered
  have emptied (parsed : parseSlotEvent it.payload = some (.emptied off)) :
      exec .slotEvent s = .next (s.popRing.slotEmptied e.zone (base + off)) := by
    rw [event, State.slotEventOf_emptied (s := s.popRing) offered.node_eq strip based parsed]
  have occupied (l : Label) (parsed : parseSlotEvent it.payload = some (.occupied off l)) :
      exec .slotEvent s = .next (s.popRing.slotOccupied it.src e.zone (base + off) l) := by
    rw [event, State.slotEventOf_occupied (s := s.popRing) offered.node_eq strip based parsed]
  refine ⟨?shelved, ?ordered, ?kept, ?noHome, ?foreign, ?misfiled, ?malformed, ?home, ?held⟩
  case shelved =>
    intro i c parsed home record shelved
    rw [emptied parsed, State.slotEmptied_shelved (s := s.popRing) home record shelved]
    rfl
  case ordered =>
    intro i c n parsed home record ordered names
    rw [emptied parsed, State.slotEmptied_ordered (s := s.popRing) home record ordered names]
    exact ⟨rfl, fun o listed => State.moveOrder_order (s := s.popRing.setCartridge i _) listed .picked⟩
  case kept =>
    intro i c parsed home record notShelved notOrdered
    rw [emptied parsed, State.slotEmptied_kept (s := s.popRing) home record notShelved notOrdered]
  case noHome =>
    intro parsed noHome
    rw [emptied parsed, State.slotEmptied_noHome (s := s.popRing) noHome]
  case foreign =>
    intro l parsed unknown
    rw [occupied l parsed, State.slotOccupied_foreign (s := s.popRing) unknown]
  case misfiled =>
    intro l i c parsed found record elsewhere
    rw [occupied l parsed, State.slotOccupied_misfiled (s := s.popRing) found record elsewhere]
  case malformed =>
    intro malformed
    rw [event, State.slotEventOf_malformed malformed]
  case held =>
    exact fun u id p f k key placed _ fields wf => State.heldCount_changeHeld key placed fields wf
  case home =>
    intro l i c parsed found record zone place home told
    have back : exec .slotEvent s = .next (s.popRing.backHome i c) := by
      rw [occupied l parsed, State.slotOccupied_home (s := s.popRing) found record zone place]
    refine ⟨fun shelf => ?_, fun loose => ?_, fun staging => ?_, fun away => ?_, fun inbound => ?_,
      fun n o moving names listed index room => ?_⟩
    · rw [back, State.backHome_kept shelf]
    · rw [back, State.backHome_reshelved loose]
      rfl
    · rw [back, State.backHome_staging staging]
      simp only [told, staging]
      rfl
    · rw [back, State.backHome_away away]
      rfl
    · rw [back, State.backHome_inbound inbound]
      rfl
    · obtain ⟨ordered, ⟨o', listed', stands⟩, unlisted⟩ :=
        State.backHome_withOrder (s := s.popRing) moving names listed index room
      exact ⟨_, o', back, ordered, listed', stands, unlisted⟩

end Sys2Proof.Machine
end

section
/-! PROOFS of the order statements: the checks of an ORDER (R152), the next number (R151), an accepted ORDER (R153, R154),
and what a fire and an epoch make of the open orders (R154 to R156). -/

namespace Sys2Proof.Machine

/-! ## The next order number (R151) -/

/-- The number that follows a number: 65535 is followed by 1. -/
def numberAfter (m : Nat) : Nat := if 65535 ≤ m then 1 else m + 1

theorem numberAfter_bounds (m : Nat) : 1 ≤ numberAfter m ∧ numberAfter m ≤ 65535 := by
  unfold numberAfter
  split <;> omega

/-- From a number in range the successors run through the cycle of the 65535 numbers. -/
theorem numberAfter_iterate {b : Nat} (h : 1 ≤ b ∧ b ≤ 65535) (j : Nat) :
    numberAfter^[j] b = (b - 1 + j) % 65535 + 1 := by
  induction j with
  | zero =>
    rw [Function.iterate_zero_apply]
    omega
  | succ j ih =>
    rw [Function.iterate_succ_apply', ih, numberAfter]
    split <;> omega

/-- Fewer than 65535 successors of a number are all distinct. -/
theorem numberAfter_iterate_inj {m i j : Nat} (hi : i < 65535) (hj : j < 65535)
    (same : numberAfter^[i + 1] m = numberAfter^[j + 1] m) : i = j := by
  rw [Function.iterate_succ_apply, Function.iterate_succ_apply, numberAfter_iterate (numberAfter_bounds m),
    numberAfter_iterate (numberAfter_bounds m)] at same
  omega

theorem nextNumber_succ (held : List Nat) (fuel n : Nat) :
    nextNumber held (fuel + 1) n
      = if numberAfter n ∈ held then nextNumber held fuel (numberAfter n) else numberAfter n :=
  if_congr List.contains_iff_mem rfl rfl

/-- The search ends at the first successor that is free, unless it has found all it tried taken. -/
theorem nextNumber_search (held : List Nat) (fuel n : Nat) :
    (∃ k, nextNumber held fuel n = numberAfter^[k + 1] n ∧ numberAfter^[k + 1] n ∉ held
        ∧ ∀ j < k, numberAfter^[j + 1] n ∈ held)
      ∨ ∀ j < fuel, numberAfter^[j + 1] n ∈ held := by
  induction fuel generalizing n with
  | zero => exact .inr fun j hj => absurd hj (Nat.not_lt_zero j)
  | succ fuel ih =>
    rw [nextNumber_succ]
    by_cases taken : numberAfter n ∈ held
    · have later {k : Nat} (below : ∀ j < k, numberAfter^[j + 1] (numberAfter n) ∈ held) :
          ∀ j < k + 1, numberAfter^[j + 1] n ∈ held
        | 0, _ => taken
        | j + 1, hj => below j (by omega)
      rw [if_pos taken]
      rcases ih (numberAfter n) with ⟨k, found, free, below⟩ | all
      · exact .inl ⟨k + 1, found, free, later below⟩
      · exact .inr (later all)
    · rw [if_neg taken]
      exact .inl ⟨0, rfl, taken, fun j hj => absurd hj (Nat.not_lt_zero j)⟩

/-- Of more successors than there are numbers held, one is free. -/
theorem numberAfter_free {held : List Nat} {fuel : Nat} (room : held.length < fuel) (small : fuel ≤ 65535) (n : Nat) :
    ¬ ∀ j < fuel, numberAfter^[j + 1] n ∈ held := by
  intro all
  let tried := (List.range fuel).map fun j => numberAfter^[j + 1] n
  have distinct : tried.Nodup := by
    refine List.nodup_range.map_on fun i hi j hj same => ?_
    rw [List.mem_range] at hi hj
    exact numberAfter_iterate_inj (by omega) (by omega) same
  have taken : tried ⊆ held := by
    intro m hm
    obtain ⟨j, hj, rfl⟩ := List.mem_map.1 hm
    exact all j (List.mem_range.1 hj)
  have fits := (List.subperm_of_subset distinct taken).length_le
  simp only [tried, List.length_map, List.length_range] at fits
  omega

/-- The new number is the first successor of the last number that no open order has (R151). -/
theorem State.newNumber_spec {s : State} (h : s.ol.orders.length ≤ 64) :
    ∃ k, s.newNumber = numberAfter^[k + 1] s.ol.lastNumber ∧ (∀ o ∈ s.ol.orders, o.number ≠ s.newNumber)
      ∧ ∀ j < k, ∃ o ∈ s.ol.orders, o.number = numberAfter^[j + 1] s.ol.lastNumber := by
  have room : (s.ol.orders.map (·.number)).length < 65 := by
    rw [List.length_map]
    omega
  rcases nextNumber_search (s.ol.orders.map (·.number)) 65 s.ol.lastNumber with ⟨k, found, free, below⟩ | all
  · have number : s.newNumber = numberAfter^[k + 1] s.ol.lastNumber := found
    refine ⟨k, number, fun o ho same => free ?_, fun j hj => List.mem_map.1 (below j hj)⟩
    rw [← number, ← same]
    exact List.mem_map_of_mem ho
  · exact absurd all (numberAfter_free room (by omega) _)

/-! ## The checks of an ORDER (R152) -/

theorem judge_cons (b : Bool) (r : Result) (l : List (Bool × Result)) :
    judge ((b, r) :: l) = if b = true then some r else judge l := by
  cases b <;> rfl

theorem judge_nil : judge [] = none := rfl

/-- The checks of R152 in their order, the first that applies giving the code. -/
theorem State.judgeOrder_eq (s : State) (l : Label) (id : Nat) :
    s.judgeOrder l id
      = if s.zt.site = none then some .badState
        else if labelOk l = false ∨ id = 0 ∨ 65534 < id then some .range
        else match (s.indexOfLabel l).bind s.cartridge with
          | none => some .notFound
          | some c => match s.party id with
            | none => some .notFound
            | some p => match p.courier with
              | none => some .notFound
              | some f =>
                if c.state ≠ .shelved then some .badState
                else if c.hold = true ∨ c.quarantine = true ∨ c.inspect = true then some .flagged
                else if p.active = false ∨ f.outbound = false then some .notPermitted
                else if f.limit < s.courierSum id + 1 then some .limit
                else if 64 ≤ s.ol.orders.length then some .full
                else none := by
  unfold State.judgeOrder
  simp only [judge_cons, judge_nil]
  refine if_congr (by simp) rfl (if_congr (by simp [or_assoc]) rfl ?_)
  cases (s.indexOfLabel l).bind s.cartridge with
  | none => simp
  | some c =>
    cases s.party id with
    | none => simp
    | some p =>
      cases hf : p.courier with
      | none => simp [hf]
      | some f => simp [hf, meets, Cartridge.flagged, or_assoc]

/-! ## An ORDER refused (R152) -/

/-- What the row of ORDER answers to a label and a party once the directive has its form. -/
def State.answerOrder (s : State) (d : Directive) (l : Label) (id : Nat) : State :=
  match s.judgeOrder l id, s.indexOfLabel l with
  | none, some i =>
    match s.cartridge i with
    | some c => (s.acceptOrder i c id s.newNumber).replyOrdered d s.newNumber
    | none => s.reply d .notFound .empty
  | some r, _ => s.reply d r .empty
  | none, none => s.reply d .notFound .empty

theorem exec_order_of_taken {s : State} {d : Directive} {l : Label} {p0 p1 : Byte} (h : s.hasTakenVerified d)
    (size : l.length = 8) (body : d.body = 0x20#8 :: l ++ [p0, p1]) :
    exec .order s = .next (s.taken.answerOrder d l (p0.toNat + 256 * p1.toNat)).takeNext := by
  have code : hasCode 0x20#8 d.body = true := by simp [hasCode, body]
  have notRestart : d.body.head? ≠ some codeRestart := by simp [body, codeRestart]
  have length : d.body.length = 11 := by simp [body, size]
  have fields : d.body.drop 1 = l ++ [p0, p1] := by simp [body]
  have label : (l ++ [p0, p1]).take 8 = l := List.take_left' size
  have party : leNat ((l ++ [p0, p1]).drop 8) = p0.toNat + 256 * p1.toNat := by
    rw [List.drop_left' size]
    simp [leNat]
  refine congrArg Host.Outcome.next ((State.takeDirective_verified h code notRestart false _).trans ?_)
  rw [State.formed_of_length length, fields]
  dsimp only
  rw [label, party]
  rfl

section
variable {s : State} {d : Directive} {l : Label} {id : Nat}

theorem State.answerOrder_refused {r : Result} (h : s.judgeOrder l id = some r) :
    s.answerOrder d l id = s.reply d r .empty := by
  simp [State.answerOrder, h]

theorem State.answerOrder_accepted {i : Nat} {c : Cartridge} (h : s.judgeOrder l id = none)
    (hi : s.indexOfLabel l = some i) (hc : s.cartridge i = some c) :
    s.answerOrder d l id = (s.acceptOrder i c id s.newNumber).replyOrdered d s.newNumber := by
  simp [State.answerOrder, h, hi, hc]

end

/-! ## Reads of the order list (R151) -/

theorem State.order_setOrder_other (s : State) {o : Order} {m : Nat} (other : m ≠ o.number) :
    (s.setOrder o).order m = s.order m := by
  have same (p : Order) (hp : p.number = m) : (if p.number = o.number then o else p) = p :=
    if_neg (hp ▸ other)
  have meets (p : Order) : ((if p.number = o.number then o else p).number = m) ↔ p.number = m := by
    split
    · next e => rw [e]
    · rfl
  rw [State.order, State.setOrder_orders, List.find?_map]
  simp only [Function.comp_def, meets]
  cases found : s.ol.orders.find? (fun p => decide (p.number = m)) with
  | none => exact found.symm
  | some p =>
    have number : p.number = m := by simpa using List.find?_some found
    exact (congrArg some (same p number)).trans found.symm

/-- With distinct numbers, an order of the list is the one its number finds. -/
theorem State.order_of_mem {s : State} (distinct : (s.ol.orders.map (·.number)).Nodup) {o : Order}
    (ho : o ∈ s.ol.orders) : s.order o.number = some o := by
  cases found : s.order o.number with
  | none => exact absurd (List.find?_eq_none.1 found o ho) (by simp)
  | some p =>
    have same : p = o := List.inj_on_of_nodup_map distinct (List.mem_of_find?_eq_some found) ho (State.order_number found)
    rw [same]

theorem State.order_eq_none_iff {s : State} {n : Nat} : s.order n = none ↔ ∀ p ∈ s.ol.orders, p.number ≠ n := by
  simp [State.order]

/-! ## Releasing an order, and settling its pick (R154, R155) -/

section
variable {s : State} {n : Nat} {o : Order}

theorem State.releaseOrder_none (h : s.order n = none) : s.releaseOrder n = s := by
  simp [State.releaseOrder, h]

theorem State.releaseOrder_told (h : s.order n = some o) (hp : o.pick = .inFlight ∨ ∃ a, o.pick = .shown a) :
    s.releaseOrder n = s.setOrder { o with state := .released } := by
  rcases hp with hp | ⟨a, hp⟩ <;> simp [State.releaseOrder, h, hp]

theorem State.releaseOrder_hidden (h : s.order n = some o) (hp : o.pick = .notSent ∨ o.pick = .undelivered)
    (hd : s.displayOf o = none) : s.releaseOrder n = s.setOrder { o with state := .released, pick := .notSent } := by
  rcases hp with hp | hp <;> simp [State.releaseOrder, h, hp, hd]

theorem State.releaseOrder_shown {a : Nat} {c : Cartridge} (h : s.order n = some o)
    (hp : o.pick = .notSent ∨ o.pick = .undelivered) (hd : s.displayOf o = some a) (hc : s.cartridge o.index = some c) :
    s.releaseOrder n
      = (s.setOrder { o with state := .released, pick := .inFlight }).requestTx (pickRequest a c n) := by
  rcases hp with hp | hp <;> simp [State.releaseOrder, h, hp, hd, hc]

theorem State.settlePick_none (h : s.order n = none) : s.settlePick n = s := by
  simp [State.settlePick, h]

theorem State.settlePick_inFlight (h : s.order n = some o) (hp : o.pick = .inFlight) : s.settlePick n = s := by
  simp [State.settlePick, h, hp]

theorem State.settlePick_notSent (h : s.order n = some o) (hp : o.pick = .notSent) : s.settlePick n = s := by
  simp [State.settlePick, h, hp]

theorem State.settlePick_undelivered (h : s.order n = some o) (hp : o.pick = .undelivered) :
    s.settlePick n = s.setOrder { o with pick := .notSent } := by
  simp [State.settlePick, h, hp]

theorem State.settlePick_shown {a : Nat} (h : s.order n = some o) (hp : o.pick = .shown a) :
    s.settlePick n = (s.setOrder { o with pick := .notSent }).requestTx (withdrawRequest a n) := by
  simp [State.settlePick, h, hp]

theorem State.moveOrder_none (h : s.order n = none) (st : OrderState) : s.moveOrder n st = s := by
  simp [State.moveOrder, h]

theorem State.moveOrder_released (h : s.order n = some o) (hs : o.state = .released) (st : OrderState) :
    s.moveOrder n st = (s.setOrder { o with state := st }).settlePick n := by
  simp [State.moveOrder, h, hs]

theorem State.moveOrder_unreleased (h : s.order n = some o) (hs : o.state ≠ .released) (st : OrderState) :
    s.moveOrder n st = s.setOrder { o with state := st } := by
  simp [State.moveOrder, h, hs]

end

theorem State.cartridge_of_displayOf {s : State} {o : Order} {a : Nat} (h : s.displayOf o = some a) :
    ∃ c, s.cartridge o.index = some c := by
  cases hc : s.cartridge o.index with
  | none => simp [State.displayOf, State.orderZone, hc] at h
  | some c => exact ⟨c, rfl⟩

theorem State.displayOf_eq {s : State} {o : Order} {c : Cartridge} {ze : ZoneEntry} (hc : s.cartridge o.index = some c)
    (hz : s.zone c.homeZone = some ze) :
    s.displayOf o = ze.fire.display.filter fun a => s.hasClass a .pickDisplay := by
  simp only [State.displayOf, State.orderZone, hc, hz, Option.map_some, Option.bind_some]
  cases ze.fire.display with
  | none => rfl
  | some a => simp [Option.filter]

/-! ## An ORDER accepted (R151 to R154) -/

/-- The order that an accepted ORDER makes (R151). -/
def State.newOrder (s : State) (i id n : Nat) (st : OrderState) (p : Pick) : Order :=
  { number := n, index := i, courier := id, state := st, pick := p,
    timeAccepted := if s.ti.clockSet then some s.ti.clock else none }

/-- An order joined to the list under its number, and its cartridge ORDERED under it (R151, R153). -/
def State.joinOrder (s : State) (i : Nat) (c : Cartridge) (o : Order) : State :=
  { s.setCartridge i { c with state := .ordered, order := some o.number } with
    ol := { orders := s.ol.orders ++ [o], lastNumber := o.number } }

theorem State.cartridge_joinOrder (s : State) (i : Nat) (c : Cartridge) (o : Order) :
    (s.joinOrder i c o).cartridge i = some { c with state := .ordered, order := some o.number } :=
  Table.get_put_same _ _ _

theorem State.acceptOrder_eq (s : State) (i : Nat) (c : Cartridge) (id n : Nat) :
    s.acceptOrder i c id n
      = if (s.fire c.homeZone).state.holdsOrders = true then s.joinOrder i c (s.newOrder i id n .waiting .notSent)
        else (s.joinOrder i c (s.newOrder i id n .waiting .notSent)).releaseOrder n := by
  let o := s.newOrder i id n .waiting .notSent
  have held := State.orderHeld_of_cartridge (s := s.joinOrder i c o) (o := o) (s.cartridge_joinOrder i c o)
  change _ = (s.fire c.homeZone).state.holdsOrders at held
  rw [← held]
  rfl

theorem State.displayOf_joinOrder {s : State} {i id n : Nat} {c : Cartridge} {ze : ZoneEntry} {st : OrderState}
    {p : Pick} (hz : s.zone c.homeZone = some ze) :
    (s.joinOrder i c (s.newOrder i id n st p)).displayOf (s.newOrder i id n st p)
      = ze.fire.display.filter fun a => s.hasClass a .pickDisplay :=
  State.displayOf_eq (s := s.joinOrder i c (s.newOrder i id n st p)) (s.cartridge_joinOrder i c _) hz

section
variable {s : State} {i id n : Nat} {c : Cartridge} (fresh : s.order n = none)
include fresh

theorem State.order_joinOrder (st : OrderState) (p : Pick) :
    (s.joinOrder i c (s.newOrder i id n st p)).order n = some (s.newOrder i id n st p) := by
  have before : s.ol.orders.find? (fun p => decide (p.number = n)) = none := fresh
  have tail : (s.newOrder i id n st p).number = n := rfl
  change (s.ol.orders ++ [s.newOrder i id n st p]).find? (fun p => decide (p.number = n)) = _
  simp [before, tail]

/-- The order at the tail of the list is replaced, and no other. -/
theorem State.setOrder_joinOrder (st st' : OrderState) (p p' : Pick) :
    (s.joinOrder i c (s.newOrder i id n st p)).setOrder (s.newOrder i id n st' p')
      = s.joinOrder i c (s.newOrder i id n st' p') := by
  let o := s.newOrder i id n st p
  let o' := s.newOrder i id n st' p'
  have others : s.ol.orders.map (fun q => if q.number = n then o' else q) = s.ol.orders :=
    (List.map_congr_left fun q hq => if_neg (State.order_eq_none_iff.1 fresh q hq)).trans (List.map_id _)
  have orders : (s.ol.orders ++ [o]).map (fun q => if q.number = n then o' else q) = s.ol.orders ++ [o'] := by
    rw [List.map_append, others, List.map_singleton, if_pos (show o.number = n from rfl)]
  exact congrArg (fun l => { s.joinOrder i c o with ol := { orders := l, lastNumber := n } }) orders

/-- The order stays without a pick where the zone holds orders or has no display (R154). -/
theorem State.acceptOrder_hidden {ze : ZoneEntry} (hz : s.zone c.homeZone = some ze)
    (hidden : ∀ a, ¬ (ze.fire.display = some a ∧ s.hasClass a .pickDisplay = true
      ∧ (s.fire c.homeZone).state.holdsOrders = false)) :
    s.acceptOrder i c id n = s.joinOrder i c (s.newOrder i id n
      (if (s.fire c.homeZone).state.holdsOrders then .waiting else .released) .notSent) := by
  rw [State.acceptOrder_eq]
  cases held : (s.fire c.homeZone).state.holdsOrders with
  | true => rfl
  | false =>
    have noDisplay : (ze.fire.display.filter fun a => s.hasClass a .pickDisplay) = none :=
      Option.filter_eq_none_iff.2 fun a ha shows => hidden a ⟨ha, shows, held⟩
    exact (State.releaseOrder_hidden (State.order_joinOrder fresh _ _) (.inl rfl)
      ((State.displayOf_joinOrder hz).trans noDisplay)).trans (State.setOrder_joinOrder fresh _ _ _ _)

/-- A released order has its PICK queued where its zone names a display (R154). -/
theorem State.acceptOrder_shown {ze : ZoneEntry} {a : Nat} (hz : s.zone c.homeZone = some ze)
    (room : s.lif.txq.length < 24) (display : ze.fire.display = some a) (cls : s.hasClass a .pickDisplay = true)
    (free : (s.fire c.homeZone).state.holdsOrders = false) :
    s.acceptOrder i c id n
      = (s.joinOrder i c (s.newOrder i id n .released .inFlight)).placeTx (pickRequest a c n) := by
  have shows : (ze.fire.display.filter fun a => s.hasClass a .pickDisplay) = some a := by
    rw [display, Option.filter_some, if_pos cls]
  have told : (s.joinOrder i c (s.newOrder i id n .waiting .notSent)).setOrder
      { s.newOrder i id n .waiting .notSent with state := .released, pick := .inFlight }
        = s.joinOrder i c (s.newOrder i id n .released .inFlight) := State.setOrder_joinOrder fresh _ _ _ _
  rw [State.acceptOrder_eq, free, if_neg Bool.false_ne_true,
    State.releaseOrder_shown (State.order_joinOrder fresh _ _) (.inl rfl)
      ((State.displayOf_joinOrder hz).trans shows) (s.cartridge_joinOrder i c _), told]
  exact State.requestTx_of_room (s := s.joinOrder i c _) room _

end

theorem State.conclude_eq (s : State) (d : Directive) (r : Result) (b : ReplyBody) :
    s.conclude d r b = { s with ti := (s.conclude d r b).ti } := by
  unfold State.conclude
  rcases (s.reply d r b).takeNext_cases with e | ⟨next, rest, -, -, -, -, e⟩ <;> rw [e] <;> rfl

theorem State.conclude_replies (s : State) (d : Directive) (r : Result) (b : ReplyBody) :
    (s.conclude d r b).ti.replies = s.ti.replies
      ++ [{ tag := d.tag, code := bodyCode d.body, result := r, body := b, restarts := false }] := by
  unfold State.conclude
  rcases (s.reply d r b).takeNext_cases with e | ⟨next, rest, -, -, -, -, e⟩ <;> rw [e] <;> rfl

/-- An accepted order is answered with its number and its state (R153). -/
theorem State.replyOrdered_eq {s : State} {n : Nat} {o : Order} (h : s.order n = some o) (d : Directive) :
    s.replyOrdered d n = s.reply d .ok (.ordered n o.state) := by
  simp [State.replyOrdered, h]

/-- Beside the list, the cartridges, the queue and the answer, an accepted ORDER leaves the state as it is (R153). -/
theorem State.answerOrder_joined {s : State} {d : Directive} {l : Label} {i id : Nat} {c : Cartridge} {st : OrderState}
    {p : Pick} {lif : Lif} (judged : s.judgeOrder l id = none) (found : s.indexOfLabel l = some i)
    (record : s.cartridge i = some c) (fresh : s.order s.newNumber = none)
    (accepted : s.acceptOrder i c id s.newNumber
      = { s.joinOrder i c (s.newOrder i id s.newNumber st p) with lif := lif }) :
    let t := (s.answerOrder d l id).takeNext
    t.cartridge i = some { c with state := .ordered, order := some s.newNumber }
      ∧ t = { s with ol := t.ol, cat := t.cat, ti := t.ti, lif := t.lif }
      ∧ t.ol = { orders := s.ol.orders ++ [s.newOrder i id s.newNumber st p], lastNumber := s.newNumber }
      ∧ t.lif = lif
      ∧ t.ti.replies = s.ti.replies ++ [{ tag := d.tag, code := bodyCode d.body, result := .ok,
                                          body := .ordered s.newNumber st, restarts := false }] := by
  let o := s.newOrder i id s.newNumber st p
  let u : State := { s.joinOrder i c o with lif := lif }
  have listed : u.order s.newNumber = some o := State.order_joinOrder (c := c) fresh st p
  have answered : (s.answerOrder d l id).takeNext = u.conclude d .ok (.ordered s.newNumber st) := by
    rw [State.answerOrder_accepted judged found record, accepted, State.replyOrdered_eq listed]
    rfl
  rw [answered, State.conclude_eq]
  exact ⟨s.cartridge_joinOrder i c o, rfl, rfl, rfl, State.conclude_replies u d _ _⟩

/-! ## Acting on one order -/

/-- Acting on the order `n` while the queue has room: no other order changes, nor what a display is found by, and at most
one telegram joins the queue. -/
structure ActsOnOrder (n : Nat) (s t : State) : Prop where
  cat : t.cat = s.cat
  nt : t.nt = s.nt
  zt : t.zt = s.zt
  other : ∀ m, m ≠ n → t.order m = s.order m
  queue : s.lif.txq ⊆ t.lif.txq
  grown : t.lif.txq.length ≤ s.lif.txq.length + 1

namespace ActsOnOrder

theorem of_eq {n : Nat} {s t : State} (h : t = s) : ActsOnOrder n s t := by
  subst h
  exact ⟨rfl, rfl, rfl, fun _ _ => rfl, List.Subset.refl _, Nat.le_succ _⟩

theorem setOrder (s : State) (o : Order) : ActsOnOrder o.number s (s.setOrder o) :=
  ⟨rfl, rfl, rfl, fun _ => s.order_setOrder_other, List.Subset.refl _, Nat.le_succ _⟩

theorem requestTx (n : Nat) {s : State} (room : s.lif.txq.length < 24) (r : TxRequest) :
    ActsOnOrder n s (s.requestTx r) := by
  rw [State.requestTx_of_room room]
  exact ⟨rfl, rfl, rfl, fun _ _ => rfl, List.subset_append_left _ _, by simp [State.placeTx]⟩

theorem after_setOrder {s t : State} {o : Order} (h : ActsOnOrder o.number (s.setOrder o) t) :
    ActsOnOrder o.number s t :=
  ⟨h.cat, h.nt, h.zt, fun m hm => (h.other m hm).trans (s.order_setOrder_other hm), h.queue, h.grown⟩

theorem setOrder_requestTx {s : State} (o : Order) (room : s.lif.txq.length < 24) (r : TxRequest) :
    ActsOnOrder o.number s ((s.setOrder o).requestTx r) :=
  after_setOrder (requestTx (s := s.setOrder o) o.number room r)

theorem settlePick {s : State} (n : Nat) (room : s.lif.txq.length < 24) : ActsOnOrder n s (s.settlePick n) := by
  cases h : s.order n with
  | none => exact of_eq (State.settlePick_none h)
  | some o =>
    obtain rfl := State.order_number h
    cases hp : o.pick with
    | inFlight => exact of_eq (State.settlePick_inFlight h hp)
    | notSent => exact of_eq (State.settlePick_notSent h hp)
    | undelivered => exact State.settlePick_undelivered h hp ▸ setOrder s { o with pick := .notSent }
    | shown a =>
      rw [State.settlePick_shown h hp]
      exact setOrder_requestTx { o with pick := .notSent } room _

theorem moveOrder {s : State} (n : Nat) (st : OrderState) (room : s.lif.txq.length < 24) :
    ActsOnOrder n s (s.moveOrder n st) := by
  cases h : s.order n with
  | none => exact of_eq (State.moveOrder_none h st)
  | some o =>
    obtain rfl := State.order_number h
    by_cases released : o.state = .released
    · rw [State.moveOrder_released h released]
      exact after_setOrder (o := { o with state := st }) (settlePick _ room)
    · exact State.moveOrder_unreleased h released st ▸ setOrder s { o with state := st }

theorem releaseOrder {s : State} (n : Nat) (room : s.lif.txq.length < 24) : ActsOnOrder n s (s.releaseOrder n) := by
  cases h : s.order n with
  | none => exact of_eq (State.releaseOrder_none h)
  | some o =>
    obtain rfl := State.order_number h
    have told (hp : o.pick = .inFlight ∨ ∃ a, o.pick = .shown a) : ActsOnOrder o.number s (s.releaseOrder o.number) :=
      State.releaseOrder_told h hp ▸ setOrder s { o with state := .released }
    have unsent (hp : o.pick = .notSent ∨ o.pick = .undelivered) : ActsOnOrder o.number s (s.releaseOrder o.number) := by
      cases hd : s.displayOf o with
      | none => exact State.releaseOrder_hidden h hp hd ▸ setOrder s { o with state := .released, pick := .notSent }
      | some a =>
        obtain ⟨c, hc⟩ := State.cartridge_of_displayOf hd
        rw [State.releaseOrder_shown h hp hd hc]
        exact setOrder_requestTx { o with state := .released, pick := .inFlight } room _
    cases hp : o.pick with
    | inFlight => exact told (.inl hp)
    | shown a => exact told (.inr ⟨a, hp⟩)
    | notSent => exact unsent (.inl hp)
    | undelivered => exact unsent (.inr hp)

end ActsOnOrder

/-! ## Acting on each order of a list (R156) -/

/-- The state in which the turn of the order `n` comes: the order and what its display is found by stand as they did, and
the queue has a free place. -/
structure AtTurn (n : Nat) (s u : State) : Prop where
  cat : u.cat = s.cat
  nt : u.nt = s.nt
  zt : u.zt = s.zt
  order : u.order n = s.order n
  room : u.lif.txq.length < 24

theorem AtTurn.cartridge {n : Nat} {s u : State} (h : AtTurn n s u) (i : Nat) : u.cartridge i = s.cartridge i := by
  rw [State.cartridge, State.cartridge, h.cat]

theorem AtTurn.displayOf {n : Nat} {s u : State} (h : AtTurn n s u) (o : Order) : u.displayOf o = s.displayOf o := by
  have zone : u.zone = s.zone := by
    funext z
    rw [State.zone, State.zone, h.zt]
  have hasClass : u.hasClass = s.hasClass := by
    funext a c
    rw [State.hasClass, State.node, h.nt]
    rfl
  simp only [State.displayOf, State.orderZone, h.cartridge, zone, hasClass]

section
variable {f : State → Nat → State} (acts : ∀ s n, s.lif.txq.length < 24 → ActsOnOrder n s (f s n))
include acts

theorem foldl_order_other {ns : List Nat} {s : State} (room : s.lif.txq.length + ns.length ≤ 24) {m : Nat}
    (other : m ∉ ns) : (ns.foldl f s).order m = s.order m := by
  induction ns generalizing s with
  | nil => rfl
  | cons n ns ih =>
    rw [List.length_cons] at room
    rw [List.mem_cons, not_or] at other
    have act := acts s n (by omega)
    have grown := act.grown
    exact (ih (by omega) other.2).trans (act.other m other.1)

theorem foldl_queue {ns : List Nat} {s : State} (room : s.lif.txq.length + ns.length ≤ 24) :
    s.lif.txq ⊆ (ns.foldl f s).lif.txq := by
  induction ns generalizing s with
  | nil => exact List.Subset.refl _
  | cons n ns ih =>
    rw [List.length_cons] at room
    have act := acts s n (by omega)
    have grown := act.grown
    exact List.Subset.trans act.queue (ih (by omega))

/-- Each order is acted on once, in a state that shows it as it was; what that leaves of it, and the telegram it queues,
stay. -/
theorem foldl_order_turn {ns : List Nat} {s : State} (room : s.lif.txq.length + ns.length ≤ 24) (distinct : ns.Nodup)
    {m : Nat} (hm : m ∈ ns) :
    ∃ u, AtTurn m s u ∧ (ns.foldl f s).order m = (f u m).order m ∧ (f u m).lif.txq ⊆ (ns.foldl f s).lif.txq := by
  induction ns generalizing s with
  | nil => exact absurd hm List.not_mem_nil
  | cons n ns ih =>
    rw [List.length_cons] at room
    obtain ⟨notLater, distinct⟩ := List.nodup_cons.1 distinct
    have act := acts s n (by omega)
    have grown := act.grown
    have rest : (f s n).lif.txq.length + ns.length ≤ 24 := by omega
    by_cases first : m = n
    · subst first
      exact ⟨s, ⟨rfl, rfl, rfl, rfl, by omega⟩, foldl_order_other acts rest notLater, foldl_queue acts rest⟩
    · obtain ⟨u, turn, order, queue⟩ := ih rest distinct ((List.mem_cons.1 hm).resolve_left first)
      exact ⟨u, ⟨turn.cat.trans act.cat, turn.nt.trans act.nt, turn.zt.trans act.zt,
        turn.order.trans (act.other m first), turn.room⟩, order, queue⟩

end

/-- The numbers of an order list are distinct, and the queue has a free place for a telegram of each. -/
structure State.OrdersFit (s : State) : Prop where
  distinct : (s.ol.orders.map (·.number)).Nodup
  room : s.lif.txq.length + s.ol.orders.length ≤ 24

section
variable {f : State → Nat → State} (acts : ∀ s n, s.lif.txq.length < 24 → ActsOnOrder n s (f s n))
variable {s : State} {o : Order} {p : State → Order → Bool}

theorem State.OrdersFit.turns (fit : s.OrdersFit) (p : State → Order → Bool) :
    ((s.ol.orders.filter (p s)).map (·.number)).Nodup
      ∧ s.lif.txq.length + ((s.ol.orders.filter (p s)).map (·.number)).length ≤ 24 := by
  have shorter := List.length_filter_le (p s) s.ol.orders
  have room := fit.room
  exact ⟨fit.distinct.sublist (List.filter_sublist.map _), by rw [List.length_map]; omega⟩

include acts

theorem State.forOrders_unmet (fit : s.OrdersFit) (ho : o ∈ s.ol.orders) (unmet : p s o = false) :
    (s.forOrders p f).order o.number = some o := by
  obtain ⟨-, room⟩ := fit.turns p
  have other : o.number ∉ (s.ol.orders.filter (p s)).map (·.number) := by
    intro hm
    obtain ⟨q, hq, number⟩ := List.mem_map.1 hm
    obtain ⟨listed, met⟩ := List.mem_filter.1 hq
    have same : q = o := List.inj_on_of_nodup_map fit.distinct listed ho number
    rw [same, unmet] at met
    cases met
  exact (foldl_order_other acts room other).trans (State.order_of_mem fit.distinct ho)

theorem State.forOrders_met (fit : s.OrdersFit) (ho : o ∈ s.ol.orders) (met : p s o = true) :
    ∃ u, AtTurn o.number s u ∧ u.order o.number = some o
      ∧ (s.forOrders p f).order o.number = (f u o.number).order o.number
      ∧ (f u o.number).lif.txq ⊆ (s.forOrders p f).lif.txq := by
  obtain ⟨distinct, room⟩ := fit.turns p
  obtain ⟨u, turn, order, queue⟩ :=
    foldl_order_turn acts room distinct (List.mem_map_of_mem (f := (·.number)) (List.mem_filter.2 ⟨ho, met⟩))
  exact ⟨u, turn, turn.order.trans (State.order_of_mem fit.distinct ho), order, queue⟩

end

/-! ## Releasing and holding the orders of a zone (R154 to R156) -/

/-- A telegram of a request stands in the queue. -/
def State.queues (s : State) (r : TxRequest) : Prop :=
  ∃ x ∈ s.lif.txq, x.cls = r.cls ∧ x.dest = r.dest ∧ x.kind = r.kind ∧ x.payload = r.payload

/-- An order is changed and a telegram queued for it. -/
theorem State.setOrder_requestTx_spec {s : State} {o o' : Order} (h : s.order o.number = some o)
    (same : o'.number = o.number) (room : s.lif.txq.length < 24) (r : TxRequest) :
    ((s.setOrder o').requestTx r).order o.number = some o' ∧ ((s.setOrder o').requestTx r).queues r := by
  rw [State.requestTx_of_room (s := s.setOrder o') room]
  exact ⟨State.order_setOrder_same h same,
    _, List.mem_append_right _ (List.mem_singleton_self _), rfl, rfl, rfl, rfl⟩

theorem State.queues.mono {s t : State} {r : TxRequest} (h : s.queues r) (kept : s.lif.txq ⊆ t.lif.txq) : t.queues r := by
  obtain ⟨x, hx, fields⟩ := h
  exact ⟨x, kept hx, fields⟩

/-- In `t` an order of `s` has been released by its pick field (R154). -/
def State.releasedIn (s t : State) (o : Order) : Prop :=
  (o.pick = .inFlight → t.order o.number = some { o with state := .released })
    ∧ (o.pick = .notSent ∨ o.pick = .undelivered →
        (s.displayOf o = none → t.order o.number = some { o with state := .released, pick := .notSent })
          ∧ (∀ a c, s.displayOf o = some a → s.cartridge o.index = some c →
              t.order o.number = some { o with state := .released, pick := .inFlight }
                ∧ t.queues (pickRequest a c o.number)))

/-- In `t` a released order waits, its pick settled (R155, R156). -/
def State.heldIn (t : State) (o : Order) : Prop :=
  (o.pick = .notSent ∨ o.pick = .undelivered → t.order o.number = some { o with state := .waiting, pick := .notSent })
    ∧ (o.pick = .inFlight → t.order o.number = some { o with state := .waiting })
    ∧ (∀ a, o.pick = .shown a → t.order o.number = some { o with state := .waiting, pick := .notSent }
        ∧ t.queues (withdrawRequest a o.number))

section
variable {s : State} {o : Order} {p : State → Order → Bool}

theorem State.releaseOrder_releasedIn (h : s.order o.number = some o) (room : s.lif.txq.length < 24) :
    s.releasedIn (s.releaseOrder o.number) o := by
  refine ⟨fun inFlight => ?_, fun pick => ⟨fun hidden => ?_, fun a c shows record => ?_⟩⟩
  · rw [State.releaseOrder_told h (.inl inFlight)]
    exact State.order_setOrder_same h rfl
  · rw [State.releaseOrder_hidden h pick hidden]
    exact State.order_setOrder_same h rfl
  · rw [State.releaseOrder_shown h pick shows record]
    exact State.setOrder_requestTx_spec (o' := { o with state := .released, pick := .inFlight }) h rfl room _

theorem State.forOrders_releasedIn (fit : s.OrdersFit) (ho : o ∈ s.ol.orders) (met : p s o = true) :
    s.releasedIn (s.forOrders p State.releaseOrder) o := by
  obtain ⟨u, turn, listed, order, queue⟩ := State.forOrders_met (fun _ n => ActsOnOrder.releaseOrder n) fit ho met
  obtain ⟨inFlight, unsent⟩ := State.releaseOrder_releasedIn listed turn.room
  rw [turn.displayOf, turn.cartridge] at unsent
  rw [State.releasedIn, order]
  refine ⟨inFlight, fun pick => ⟨(unsent pick).1, fun a c shows record => ?_⟩⟩
  obtain ⟨sent, queued⟩ := (unsent pick).2 a c shows record
  exact ⟨sent, queued.mono queue⟩

/-- R155, R156: the pick field decides what becomes of the pick of an order that leaves RELEASED. -/
theorem State.moveOrder_heldIn (h : s.order o.number = some o) (hs : o.state = .released)
    (room : s.lif.txq.length < 24) : (s.moveOrder o.number .waiting).heldIn o := by
  have moved : (s.setOrder { o with state := .waiting }).order o.number = some { o with state := .waiting } :=
    State.order_setOrder_same h rfl
  rw [State.moveOrder_released h hs]
  refine ⟨fun pick => ?_, fun inFlight => ?_, fun a shown => ?_⟩
  · rcases pick with notSent | undelivered
    · rw [State.settlePick_notSent moved notSent, moved, ← notSent]
    · rw [State.settlePick_undelivered moved undelivered]
      exact State.order_setOrder_same moved rfl
  · rw [State.settlePick_inFlight moved inFlight, moved]
  · rw [State.settlePick_shown moved shown]
    exact State.setOrder_requestTx_spec (o := { o with state := .waiting })
      (o' := { o with state := .waiting, pick := .notSent }) moved rfl room _

theorem State.forOrders_heldIn (fit : s.OrdersFit) (ho : o ∈ s.ol.orders) (met : p s o = true) (hs : o.state = .released) :
    (s.forOrders p fun s n => s.moveOrder n .waiting).heldIn o := by
  obtain ⟨u, turn, listed, order, queue⟩ :=
    State.forOrders_met (fun _ n => ActsOnOrder.moveOrder n .waiting) fit ho met
  obtain ⟨unsent, inFlight, shown⟩ := State.moveOrder_heldIn listed hs turn.room
  rw [State.heldIn, order]
  refine ⟨unsent, inFlight, fun a pick => ?_⟩
  obtain ⟨settled, queued⟩ := shown a pick
  exact ⟨settled, queued.mono queue⟩

end

/-! ## Fire and the epoch (R156) -/

theorem State.ordersFire_holds {before after : FireState} (ha : after.holdsOrders = true) (hb : before.holdsOrders = false)
    (s : State) (z : Nat) : s.ordersFire z before after = s.holdOrders z := by
  simp [State.ordersFire, ha, hb]

theorem State.ordersFire_frees {before after : FireState} (ha : after = .normal) (hb : before.holdsOrders = true)
    (s : State) (z : Nat) : s.ordersFire z before after = s.freeOrders z := by
  simp [State.ordersFire, ha, hb]

theorem State.ordersFire_alike {before after : FireState} (same : after.holdsOrders = before.holdsOrders)
    (s : State) (z : Nat) : s.ordersFire z before after = s := by
  cases hb : before.holdsOrders with
  | false => simp [State.ordersFire, same, hb]
  | true =>
    have notNormal : after ≠ .normal := by
      rintro rfl
      rw [hb] at same
      cases same
    simp [State.ordersFire, same, hb, notNormal]

section
variable {s : State} {o : Order}

theorem State.holdOrders_spec (fit : s.OrdersFit) (ho : o ∈ s.ol.orders) (z : Nat) :
    (o.state = .released → s.orderZone o = some z → (s.holdOrders z).heldIn o)
      ∧ (o.state ≠ .released ∨ s.orderZone o ≠ some z → (s.holdOrders z).order o.number = some o) := by
  refine ⟨fun released zone => ?_, fun spared => ?_⟩
  · exact State.forOrders_heldIn fit ho (by simp [released, zone]) released
  · exact State.forOrders_unmet (fun _ n => ActsOnOrder.moveOrder n .waiting) fit ho
      (by simpa [or_iff_not_imp_left] using spared)

theorem State.freeOrders_spec (fit : s.OrdersFit) (ho : o ∈ s.ol.orders) (z : Nat) :
    (o.state = .waiting → s.orderZone o = some z → s.releasedIn (s.freeOrders z) o)
      ∧ (o.state ≠ .waiting ∨ s.orderZone o ≠ some z → (s.freeOrders z).order o.number = some o) := by
  refine ⟨fun waiting zone => ?_, fun spared => ?_⟩
  · exact State.forOrders_releasedIn fit ho (by simp [waiting, zone])
  · exact State.forOrders_unmet (fun _ n => ActsOnOrder.releaseOrder n) fit ho
      (by simpa [or_iff_not_imp_left] using spared)

theorem State.orderHeld_iff :
    s.orderHeld o = true ↔ ∃ z, s.orderZone o = some z ∧ (s.fire z).state.holdsOrders = true := by
  unfold State.orderHeld
  cases s.orderZone o <;> simp

theorem State.ordersEpoch_spec (fit : s.OrdersFit) (ho : o ∈ s.ol.orders) :
    (o.state = .waiting → s.orderHeld o = false → s.releasedIn s.ordersEpoch o)
      ∧ (o.state ≠ .waiting ∨ s.orderHeld o = true → s.ordersEpoch.order o.number = some o) := by
  refine ⟨fun waiting free => ?_, fun spared => ?_⟩
  · exact State.forOrders_releasedIn fit ho (by simp [waiting, free])
  · exact State.forOrders_unmet (fun _ n => ActsOnOrder.releaseOrder n) fit ho
      (by simpa [or_iff_not_imp_left] using spared)

end

/-! ## The statement -/

/-- Settles O40: the refusals are `answerOrder_refused`, the acceptance is `acceptOrder_shown` or `acceptOrder_hidden`, and
the fire and the epoch act on each order at its turn. -/
theorem orderIsAcceptedOrRefused : Obligations.OrderIsAcceptedOrRefused := by
  refine ⟨fun s d l p0 p1 taken size body => ⟨fun r refused => ?_, ?accepted⟩, State.judgeOrder_eq,
    fun s => State.newNumber_spec, ?fire⟩
  · rw [exec_order_of_taken taken size body, State.answerOrder_refused (s := s.taken) refused]
    rfl
  case accepted =>
    intro i c ze judged found record zone fresh room held shows o
    let id := p0.toNat + 256 * p1.toNat
    have runs : exec .order s = .next (s.taken.answerOrder d l id).takeNext := exec_order_of_taken taken size body
    have code : bodyCode d.body = 0x20#8 := by simp [body, bodyCode]
    rw [← code]
    by_cases shown : ∃ a, shows a
    · obtain ⟨a, display, cls, free⟩ := shown
      have accepted := State.acceptOrder_shown (s := s.taken) (i := i) (id := id) fresh zone room display cls free
      obtain ⟨ordered, frame, list, queue, replies⟩ :=
        State.answerOrder_joined (s := s.taken) (d := d) judged found record fresh accepted
      have released : (if held then OrderState.waiting else .released) = .released := by
        rw [show held = false from free]
        rfl
      refine ⟨_, runs, ordered, frame, fun hidden => absurd ⟨display, cls, free⟩ (hidden a), fun b other => ?_, ?_⟩
      · obtain rfl : a = b := Option.some.inj (display.symm.trans other.1)
        exact ⟨by rw [list]; simp only [o, released]; rfl, queue⟩
      · rw [replies, released]
        rfl
    · have hidden : ∀ a, ¬ shows a := not_exists.1 shown
      have accepted := State.acceptOrder_hidden (s := s.taken) (i := i) (id := id) fresh zone hidden
      obtain ⟨ordered, frame, list, queue, replies⟩ :=
        State.answerOrder_joined (s := s.taken) (d := d) (lif := s.lif) judged found record fresh accepted
      exact ⟨_, runs, ordered, frame, fun _ => ⟨list, queue⟩, fun a ha => absurd ha (hidden a), replies⟩
  case fire =>
    intro s z before after o distinct ho room zone released t
    have fit : s.OrdersFit := ⟨distinct, room⟩
    refine ⟨fun ha hb => ?_, fun ha hb => ?_, fun same => State.ordersFire_alike same s z, fun waiting free => ?_,
      fun spared => ?_⟩
    · rw [show t = s.holdOrders z from State.ordersFire_holds ha hb s z]
      exact State.holdOrders_spec fit ho z
    · rw [show t = s.freeOrders z from State.ordersFire_frees ha hb s z]
      exact State.freeOrders_spec fit ho z
    · refine (State.ordersEpoch_spec fit ho).1 waiting (Bool.eq_false_iff.2 fun held => ?_)
      obtain ⟨y, hy, holds⟩ := State.orderHeld_iff.1 held
      exact absurd holds (by simp [free y hy])
    · exact (State.ordersEpoch_spec fit ho).2 (spared.imp_right State.orderHeld_iff.2)

end Sys2Proof.Machine
end

section
/-! PROOFS of the handover statements: how a courier's badge is decided (R164, R165), what a SCAN adds to an engine's list or
is refused for (R167, R175), and what a CLOSE ends (R168, R176, R178). -/

namespace Sys2Proof.Machine

/-! ## A terminal's telegram at its engine (R162) -/

section
variable {s : State} {it : RingItem} {h : Hatch} {side : Side} {z : Nat} {g : HandoverGroup}

theorem State.offersTerminal.hatchZone_eq {kind : Byte} (offered : s.offersTerminal it kind h side z g) :
    s.hatchZone h = some (z, g) := by
  obtain ⟨_, _, _, _, zone, _⟩ := offered
  exact zone

theorem State.takeTerminal_of_offers {kind : Byte} (offered : s.offersTerminal it kind h side z g)
    (act : Hatch → Side → RingItem → State → State) : s.takeTerminal kind act = act h side it s.popRing := by
  obtain ⟨e, head, cls, hatch, zone, place⟩ := offered
  have side_eq : sideOf e.cls = some side := by
    rw [cls]
    cases side <;> rfl
  have node : s.popRing.node it.src = some e := head.node_eq
  have hatchZone : s.popRing.hatchZone h = some (z, g) := zone
  refine (State.takeHead_offers head _).trans ?_
  simp only [node, side_eq, hatch, hatchZone, place, if_true]

theorem exec_badge_of_courier {b : CourierBadge} (offered : s.offersTerminal it 0x40#8 h .courier z g)
    (parsed : parseCourierBadge it.payload = some b) :
    exec .badge s = .next (s.popRing.courierBadge h it.src b) := by
  refine congrArg Host.Outcome.next ((State.takeTerminal_of_offers offered _).trans ?_)
  simp only [parsed]

theorem exec_close_of_reader (offered : s.offersTerminal it 0x42#8 h .reader z g) (empty : it.payload = []) :
    exec .close s = .next (s.popRing.closeReader h it.src) :=
  congrArg Host.Outcome.next ((State.takeTerminal_of_offers offered _).trans (if_pos ⟨empty, rfl⟩))

end

/-! ## The table of a courier's badge (R164) -/

theorem State.hatchFire_eq_false_iff {s : State} {z : Nat} :
    s.hatchFire z = false ↔ s.fz.fireActive = false ∧ (s.fire z).state ≠ .confirmed := by
  simp [State.hatchFire]

/-- The courier may go in a direction (R148). -/
def CourierFields.permits (c : CourierFields) : Direction → Bool
  | .out => c.outbound
  | .inward => c.inbound

theorem CourierFields.windowContains_iff (c : CourierFields) (m : Nat) :
    c.windowContains m = true ↔
      if c.windowStart ≤ c.windowStop then c.windowStart ≤ m ∧ m ≤ c.windowStop
      else c.windowStart ≤ m ∨ m ≤ c.windowStop := by
  unfold CourierFields.windowContains
  split <;> simp

section
variable {s : State} {h : Hatch} {z : Nat} {g : HandoverGroup} {b : CourierBadge} {p : Party} {c : CourierFields}

theorem State.courierVerdict_fireActive (zone : s.hatchZone h = some (z, g)) (fire : s.hatchFire z = true) :
    s.courierVerdict h b = .fireActive := by
  simp [State.courierVerdict, zone, fire]

theorem State.courierVerdict_unknownParty (zone : s.hatchZone h = some (z, g)) (calm : s.hatchFire z = false)
    (unknown : s.party b.id = none) : s.courierVerdict h b = .unknownParty := by
  simp [State.courierVerdict, zone, calm, unknown]

theorem State.courierVerdict_noCourier (zone : s.hatchZone h = some (z, g)) (calm : s.hatchFire z = false)
    (party : s.party b.id = some p) (fields : p.courier = none) : s.courierVerdict h b = .notPermitted := by
  simp [State.courierVerdict, zone, calm, party, fields]

/-- The rest of the table, for a known courier in a calm zone. -/
theorem State.courierVerdict_courier (zone : s.hatchZone h = some (z, g)) (calm : s.hatchFire z = false)
    (party : s.party b.id = some p) (fields : p.courier = some c) :
    s.courierVerdict h b =
      if p.active = false ∨ c.permits b.direction = false then .notPermitted
      else if s.ti.clockSet = false then .clockUnset
      else if c.windowContains (minuteOfDay s.ti.clock) = false then .outsideWindow
      else if s.lock g.lock = none then .badState
      else .accepted := by
  have permits : (if b.direction = .out then !c.outbound else !c.inbound) = !c.permits b.direction := by
    cases b.direction <;> rfl
  simp only [State.courierVerdict, zone, calm, party, fields, permits]
  cases p.active <;> simp

end

theorem openedEngine_eq (b : CourierBadge) :
    openedEngine b =
      { Engine.idle with
        state := .opened, direction := some b.direction, courier := some b.id, caseTag := b.caseTag
        caseTemp := (match b.direction with
          | .inward => b.caseTemp
          | .out => none)
        openTimer := some 60000 } := by
  unfold openedEngine
  cases b.direction <;> rfl

theorem State.courierBadge_busy {s : State} {h : Hatch} (busy : (s.engine h).state ≠ .idle) (sender : Nat)
    (b : CourierBadge) : s.courierBadge h sender b = s.answerResult h sender .busy := if_neg busy

theorem State.courierBadge_refused {s : State} {h : Hatch} {b : CourierBadge} (idle : (s.engine h).state = .idle)
    (refused : s.courierVerdict h b ≠ .accepted) (sender : Nat) :
    s.courierBadge h sender b = s.answerResult h sender (s.courierVerdict h b) := (if_pos idle).trans (if_neg refused)

theorem State.courierBadge_accepted {s : State} {h : Hatch} {b : CourierBadge} (idle : (s.engine h).state = .idle)
    (accepted : s.courierVerdict h b = .accepted) (sender : Nat) :
    s.courierBadge h sender b = (s.setEngine h (openedEngine b)).answerResult h sender .accepted :=
  (if_pos idle).trans (if_pos accepted)

/-- Settles O42: the verdict's rows are the branches of `courierVerdict`, and the badge acts by its verdict. -/
theorem courierBadgeIsDecidedInOrder : Obligations.CourierBadgeIsDecidedInOrder := by
  refine ⟨?table, ?badge⟩
  case table =>
    intro s h z g b p c zone calm known m inWindow
    have calm_iff : s.hatchFire z = false ↔ calm := State.hatchFire_eq_false_iff
    have window_iff : c.windowContains (minuteOfDay s.ti.clock) = true ↔ inWindow := c.windowContains_iff m
    have rest (quiet : calm) := State.courierVerdict_courier (b := b) (p := p) (c := c) zone (calm_iff.2 quiet)
    have cleared (quiet : calm) (good : known) : s.courierVerdict h b =
        if s.ti.clockSet = false then .clockUnset
        else if c.windowContains (minuteOfDay s.ti.clock) = false then .outsideWindow
        else if s.lock g.lock = none then .badState
        else .accepted := by
      obtain ⟨party, fields, active, direction⟩ := good
      have permitted : c.permits b.direction = true := direction
      rw [rest quiet party fields, if_neg (by simp [active, permitted])]
    refine ⟨fun burning => ?_, fun quiet => State.courierVerdict_unknownParty zone (calm_iff.2 quiet),
      fun quiet => State.courierVerdict_noCourier zone (calm_iff.2 quiet), fun quiet party fields suspended => ?_,
      fun quiet party fields barred => ?_, fun quiet good unset => ?_, fun quiet good running outside => ?_,
      fun quiet good running inside noLock => ?_, fun quiet good running inside lock => ?_⟩
    · exact State.courierVerdict_fireActive zone (Bool.eq_true_of_not_eq_false (mt calm_iff.1 burning))
    · rw [rest quiet party fields, if_pos (.inl suspended)]
    · rw [rest quiet party fields, if_pos (.inr barred)]
    · rw [cleared quiet good, if_pos unset]
    · simp [cleared quiet good, running, mt window_iff.1 outside]
    · simp [cleared quiet good, running, window_iff.2 inside, noLock]
    · obtain ⟨l, lock⟩ := lock
      simp [cleared quiet good, running, window_iff.2 inside, lock]
  case badge =>
    intro s it h z g b offered parsed s1
    rw [exec_badge_of_courier offered parsed]
    refine ⟨fun busy => ?_, fun idle refused => ?_, fun idle accepted => ?_⟩
    · rw [State.courierBadge_busy (s := s.popRing) busy]
    · rw [State.courierBadge_refused (s := s.popRing) idle refused]
      rfl
    · refine congrArg Host.Outcome.next ((State.courierBadge_accepted (s := s.popRing) idle accepted it.src).trans ?_)
      exact congrArg (fun e => (s1.setEngine h e).answerResult h it.src .accepted) (openedEngine_eq b)

/-! ## A SCAN (R167, R175) -/

/-- What an engine makes of a reader's SCAN of a well-formed label, by its state. -/
def State.scanReader (s : State) (h : Hatch) (sender : Nat) (l : Label) : State :=
  match (s.engine h).state with
  | .scanning => s.scanOut h sender l
  | .intake => s.scanIn h sender l
  | .idle | .opened | .confirm | .release => s.answerResult h sender .badState

theorem exec_scan_of_reader {s : State} {it : RingItem} {h : Hatch} {z : Nat} {g : HandoverGroup}
    (offered : s.offersTerminal it 0x41#8 h .reader z g) (size : it.payload.length = 8) :
    exec .scan s = .next (s.popRing.scanReader h it.src it.payload) := by
  have label : parseLabel it.payload = some it.payload := if_pos size
  refine congrArg Host.Outcome.next ((State.takeTerminal_of_offers offered _).trans ?_)
  rw [label]
  exact rfl

section
variable {s : State} {h : Hatch} {l : Label} {i : Nat} {c : Cartridge}

theorem State.scanReader_closed
    (closed : (s.engine h).state = .idle ∨ (s.engine h).state = .opened ∨ (s.engine h).state = .confirm
      ∨ (s.engine h).state = .release) (sender : Nat) :
    s.scanReader h sender l = s.answerResult h sender .badState := by
  rcases closed with e | e | e | e <;> simp [State.scanReader, e]

theorem State.scanReader_foreign (opened : (s.engine h).state = .scanning ∨ (s.engine h).state = .intake)
    (unknown : s.indexOfLabel l = none) (sender : Nat) :
    s.scanReader h sender l = s.answerResult h sender .foreign := by
  rcases opened with e | e
  · simp [State.scanReader, State.scanOut, e, unknown]
  · simp [State.scanReader, State.scanIn, e, unknown]

theorem State.scanReader_duplicate (opened : (s.engine h).state = .scanning ∨ (s.engine h).state = .intake)
    (found : s.indexOfLabel l = some i) (record : s.cartridge i = some c) (listed : i ∈ (s.engine h).list) (sender : Nat) :
    s.scanReader h sender l = s.answerResult h sender .duplicate := by
  rcases opened with e | e
  · simp [State.scanReader, State.scanOut, e, found, record, listed]
  · simp [State.scanReader, State.scanIn, e, found, record, listed]

theorem State.scanReader_full (opened : (s.engine h).state = .scanning ∨ (s.engine h).state = .intake)
    (found : s.indexOfLabel l = some i) (record : s.cartridge i = some c) (fresh : i ∉ (s.engine h).list)
    (full : 48 ≤ (s.engine h).list.length) (sender : Nat) :
    s.scanReader h sender l = s.answerResult h sender .full := by
  rcases opened with e | e
  · simp [State.scanReader, State.scanOut, e, found, record, fresh, full]
  · simp [State.scanReader, State.scanIn, e, found, record, fresh, full]

variable (found : s.indexOfLabel l = some i) (record : s.cartridge i = some c) (fresh : i ∉ (s.engine h).list)
  (room : (s.engine h).list.length < 48)
include found record fresh room

theorem State.scanReader_flagged (scanning : (s.engine h).state = .scanning) (flagged : c.flagged = true) (sender : Nat) :
    s.scanReader h sender l = s.answerResult h sender .flagged := by
  simp [State.scanReader, State.scanOut, scanning, found, record, fresh, Nat.not_le.2 room, flagged]

theorem State.scanReader_notOrdered (scanning : (s.engine h).state = .scanning) (clear : c.flagged = false)
    (unfit : c.state ≠ .picked ∨ c.order = none
      ∨ ∃ n o, c.order = some n ∧ s.order n = some o ∧ some o.courier ≠ (s.engine h).courier) (sender : Nat) :
    s.scanReader h sender l = s.answerResult h sender .unexpected := by
  simp only [State.scanReader, State.scanOut, scanning, found, record, if_neg fresh, if_neg (Nat.not_le.2 room), clear]
  rcases unfit with notPicked | loose | ⟨n, o, names, listed, other⟩
  · cases c.order.bind s.order <;> simp [notPicked]
  · simp [loose]
  · simp [names, listed, other]

theorem State.scanReader_manifested {n : Nat} {o : Order} (scanning : (s.engine h).state = .scanning)
    (clear : c.flagged = false) (picked : c.state = .picked) (names : c.order = some n) (listed : s.order n = some o)
    (courier : some o.courier = (s.engine h).courier) (orderPicked : o.state = .picked) (sender : Nat) :
    s.scanReader h sender l =
      (((s.setEngine h { s.engine h with list := (s.engine h).list ++ [i] }).setCartridge i
        { c with state := .manifested, hatch := some h }).setOrder { o with state := .manifested }).answerResult h sender
          .accepted := by
  have order : ((s.setEngine h { s.engine h with list := (s.engine h).list ++ [i] }).setCartridge i
      { c with state := .manifested, hatch := some h }).order o.number = some o := by
    rw [State.order_number listed]
    exact (State.order_congr (by simp) n).trans listed
  have ordered : c.order.bind s.order = some o := by rw [names, Option.bind_some, listed]
  have scanned : s.scanReader h sender l = s.scanOut h sender l := by rw [State.scanReader, scanning]
  rw [scanned, ← State.moveOrder_unreleased order (by simp [orderPicked])]
  simp only [State.scanOut, found, record, if_neg fresh, if_neg (Nat.not_le.2 room), clear, ordered, picked, courier,
    and_self, if_true, Bool.false_eq_true, if_false]

theorem State.scanReader_notAway (intake : (s.engine h).state = .intake) (present : c.state ≠ .away) (sender : Nat) :
    s.scanReader h sender l = s.answerResult h sender .unexpected := by
  simp [State.scanReader, State.scanIn, intake, found, record, fresh, Nat.not_le.2 room, present]

theorem State.scanReader_inbound (intake : (s.engine h).state = .intake) (away : c.state = .away) (sender : Nat) :
    s.scanReader h sender l =
      ((s.setEngine h { s.engine h with list := (s.engine h).list ++ [i] }).setCartridge i
        { c with state := .inbound, hatch := some h }).answerResult h sender .accepted := by
  simp [State.scanReader, State.scanIn, intake, found, record, fresh, Nat.not_le.2 room, away]

end

/-! ## A CLOSE (R168, R176) -/

section
variable {s : State} {h : Hatch}

theorem State.closeReader_empty (scanning : (s.engine h).state = .scanning) (empty : (s.engine h).list = [])
    (sender : Nat) : s.closeReader h sender = s.answerResult h sender .empty := by
  simp [State.closeReader, scanning, empty]

theorem State.closeReader_scanned (scanning : (s.engine h).state = .scanning) (filled : (s.engine h).list ≠ [])
    (sender : Nat) :
    s.closeReader h sender =
      (s.setEngine h { s.engine h with state := .confirm, first := none }).answerResult h sender .accepted := by
  simp [State.closeReader, scanning, filled]

theorem State.closeReader_closed
    (closed : (s.engine h).state = .idle ∨ (s.engine h).state = .opened ∨ (s.engine h).state = .confirm
      ∨ (s.engine h).state = .release) (sender : Nat) :
    s.closeReader h sender = s.answerResult h sender .badState := by
  rcases closed with e | e | e | e <;> simp [State.closeReader, e]

theorem State.closeReader_intake (intake : (s.engine h).state = .intake) (sender : Nat) :
    s.closeReader h sender = s.commitIn h .close := by
  simp [State.closeReader, intake]

end

/-! ## A courier's held count after a fall (R149) -/

theorem Table.findKey_meets {α : Type} {t : Table α} {p : Nat → α → Bool} {k : Nat} (w : Table.wf t = true)
    (h : Table.findKey t p = some k) : ∃ a, Table.get t k = some a ∧ p k a = true := by
  obtain ⟨⟨i, a⟩, found, rfl⟩ := Option.map_eq_some_iff.1 h
  exact ⟨a, Table.get_of_mem w (List.mem_of_find?_eq_some found), List.find?_some (p := fun q : Nat × α => p q.1 q.2) found⟩

/-- A change of a held count touches no party but the courier that is named. -/
theorem State.changeHeld_cases (s : State) (id : Nat) (f : Nat → Nat) :
    (s.changeHeld id f = s ∧ s.heldCount id = 0)
      ∨ ∃ k p c, s.partyKey id = some k ∧ Table.get s.pt.parties k = some p ∧ p.courier = some c
        ∧ (s.changeHeld id f).pt.parties
          = Table.put s.pt.parties k { p with courier := some { c with held := f c.held } } := by
  cases key : s.partyKey id with
  | none => simp [State.changeHeld, State.heldCount, State.party, key]
  | some k =>
    cases entry : Table.get s.pt.parties k with
    | none => simp [State.changeHeld, State.heldCount, State.party, key, entry]
    | some p =>
      cases fields : p.courier with
      | none => simp [State.changeHeld, State.heldCount, State.party, key, entry, fields]
      | some c => exact .inr ⟨k, p, c, rfl, entry, fields, by simp [State.changeHeld, key, entry, fields]⟩

section
variable {s : State} (w : Table.wf s.pt.parties = true)
include w

theorem State.changeHeld_wf (id : Nat) (f : Nat → Nat) : Table.wf (s.changeHeld id f).pt.parties = true := by
  rcases s.changeHeld_cases id f with ⟨same, -⟩ | ⟨k, p, c, -, -, -, parties⟩
  · rwa [same]
  · rw [parties]
    exact Table.wf_put _ _ w

theorem State.heldCount_changeHeld_other {id other : Nat} (ne : id ≠ other) (f : Nat → Nat) :
    (s.changeHeld other f).heldCount id = s.heldCount id := by
  rcases s.changeHeld_cases other f with ⟨same, -⟩ | ⟨k, p, c, key, entry, -, parties⟩
  · rw [same]
  · have otherId : p.id = other := by
      obtain ⟨q, found, named⟩ := Table.findKey_meets w key
      obtain rfl : p = q := Option.some.inj (entry.symm.trans found)
      simpa using named
    have keys : (s.changeHeld other f).partyKey id = s.partyKey id := by
      rw [State.partyKey, parties]
      exact Table.findKey_put w entry rfl
    have party : (s.changeHeld other f).party id = s.party id := by
      rw [State.party, keys, parties, State.party]
      cases place : s.partyKey id with
      | none => rfl
      | some j =>
        refine Table.get_put_other _ _ fun here => ne ?_
        obtain ⟨q, found, named⟩ := Table.findKey_meets w place
        obtain rfl : p = q := Option.some.inj (entry.symm.trans (here ▸ found))
        exact Eq.symm (by simpa [otherId] using named)
    rw [State.heldCount, party, State.heldCount]

theorem State.heldCount_lowerHeld (other id : Nat) :
    (s.lowerHeld other).heldCount id = s.heldCount id - if other = id then 1 else 0 := by
  by_cases same : other = id
  · subst same
    rw [if_pos rfl]
    rcases s.changeHeld_cases other (· - 1) with ⟨unchanged, noneHeld⟩ | ⟨k, p, c, key, entry, fields, -⟩
    · rw [State.lowerHeld, unchanged, noneHeld]
    · rw [State.lowerHeld, State.heldCount_changeHeld key entry fields w]
      simp [State.heldCount, State.party, key, entry, fields]
  · rw [if_neg same]
    exact State.heldCount_changeHeld_other w (Ne.symm same) _

theorem State.lowerHeldOf_wf (courier : Option Nat) : Table.wf (s.lowerHeldOf courier).pt.parties = true := by
  cases courier with
  | none => exact w
  | some id => exact State.changeHeld_wf w id _

theorem State.heldCount_lowerHeldOf (courier : Option Nat) (id : Nat) :
    (s.lowerHeldOf courier).heldCount id = s.heldCount id - if courier = some id then 1 else 0 := by
  cases courier with
  | none => rfl
  | some other => simpa [State.lowerHeldOf] using State.heldCount_lowerHeld w other id

end

/-! ## Taking in the cartridges of a list (R178) -/

/-- What an inbound commit makes of a record: STAGING with its rest, and nothing left of its loan. -/
def Cartridge.takenIn (c : Cartridge) (staging : Option Nat) (a : Nat) : Cartridge :=
  { c with state := .staging, staging := staging, acclim := some a, courier := none, dueBack := none, hatch := none,
           overdue := false }

section
variable (zone : Option Nat) (a : Nat)

theorem State.takeIn_absent {s : State} {i : Nat} (absent : s.cartridge i = none) : State.takeIn zone a s i = s := by
  simp [State.takeIn, absent]

theorem State.takeIn_record {s : State} {i : Nat} {c : Cartridge} (record : s.cartridge i = some c) :
    State.takeIn zone a s i = (s.lowerHeldOf c.courier).setCartridge i (c.takenIn zone a) := by
  simp [State.takeIn, record, Cartridge.takenIn]

theorem State.cartridge_takeIn_same (s : State) (i : Nat) :
    (State.takeIn zone a s i).cartridge i = (s.cartridge i).map (·.takenIn zone a) := by
  cases record : s.cartridge i with
  | none => rw [State.takeIn_absent zone a record, record, Option.map_none]
  | some c =>
    rw [State.takeIn_record zone a record]
    exact Table.get_put_same _ _ _

theorem State.cartridge_takeIn_other (s : State) {i j : Nat} (other : j ≠ i) :
    (State.takeIn zone a s i).cartridge j = s.cartridge j := by
  cases record : s.cartridge i with
  | none => rw [State.takeIn_absent zone a record]
  | some c =>
    rw [State.takeIn_record zone a record]
    exact (Table.get_put_other _ _ other).trans (by simp [State.cartridge])

/-- Each listed record is taken in; taking one in again leaves it as it is. -/
theorem State.cartridge_foldl_takeIn (l : List Nat) (s : State) (j : Nat) :
    (l.foldl (State.takeIn zone a) s).cartridge j
      = if j ∈ l then (s.cartridge j).map (·.takenIn zone a) else s.cartridge j := by
  induction l generalizing s with
  | nil => simp
  | cons i l ih =>
    rw [List.foldl_cons, ih]
    by_cases here : j = i
    · subst here
      rw [State.cartridge_takeIn_same, if_pos List.mem_cons_self]
      split
      · rw [Option.map_map]
        rfl
      · rfl
    · rw [State.cartridge_takeIn_other zone a s here]
      simp [here]

theorem State.engine_foldl_takeIn (l : List Nat) (s : State) (k : Hatch) :
    (l.foldl (State.takeIn zone a) s).engine k = s.engine k :=
  foldl_keeps (fun s => s.engine k) _ (fun s i => by cases k <;> simp [State.engine]) l s

theorem State.heldCount_takeIn {s : State} (w : Table.wf s.pt.parties = true) (i id : Nat) :
    (State.takeIn zone a s i).heldCount id
      = s.heldCount id - if (s.cartridge i).bind (·.courier) = some id then 1 else 0 := by
  cases record : s.cartridge i with
  | none => simp [State.takeIn_absent zone a record]
  | some c =>
    rw [State.takeIn_record zone a record]
    exact State.heldCount_lowerHeldOf w c.courier id

theorem State.takeIn_wf {s : State} (w : Table.wf s.pt.parties = true) (i : Nat) :
    Table.wf (State.takeIn zone a s i).pt.parties = true := by
  cases record : s.cartridge i with
  | none => rwa [State.takeIn_absent zone a record]
  | some c =>
    rw [State.takeIn_record zone a record]
    exact State.lowerHeldOf_wf w c.courier

/-- Each courier holds one fewer for each listed record that names it. -/
theorem State.heldCount_foldl_takeIn {l : List Nat} (distinct : l.Nodup) {s : State}
    (w : Table.wf s.pt.parties = true) (id : Nat) :
    (l.foldl (State.takeIn zone a) s).heldCount id
      = s.heldCount id - (l.filter (fun i => (s.cartridge i).bind (·.courier) = some id)).length := by
  induction l generalizing s with
  | nil => rfl
  | cons i l ih =>
    obtain ⟨notLater, distinct⟩ := List.nodup_cons.1 distinct
    have later : l.filter (fun j => ((State.takeIn zone a s i).cartridge j).bind (·.courier) = some id)
        = l.filter (fun j => (s.cartridge j).bind (·.courier) = some id) := by
      refine List.filter_congr fun j hj => ?_
      rw [State.cartridge_takeIn_other zone a s (by rintro rfl; exact notLater hj)]
    rw [List.foldl_cons, ih distinct (State.takeIn_wf zone a w i), later, State.heldCount_takeIn zone a w,
      List.filter_cons, Nat.sub_sub]
    congr 1
    split
    · next names => simp [names, Nat.add_comm]
    · next silent => simp [silent]

end

/-! ## An inbound commit (R178) -/

theorem State.engine_endExchange_other (s : State) {h k : Hatch} (other : k ≠ h) (cause : HandoverCause)
    (carts : List (Nat × Label)) (dueBack : Option Nat) (staging : Option (Nat × Nat)) :
    (s.endExchange h cause carts dueBack staging).engine k = s.engine k := by
  refine (State.engine_setEngine_other _ h k _ other).trans ?_
  cases k <;> simp [State.engine]

theorem State.engine_commitIn_same (s : State) (h : Hatch) (cause : HandoverCause) :
    (s.commitIn h cause).engine h = Engine.idle := State.engine_setEngine_same _ _ _

theorem State.engine_commitIn_other (s : State) {h k : Hatch} (other : k ≠ h) (cause : HandoverCause) :
    (s.commitIn h cause).engine k = s.engine k := by
  unfold State.commitIn
  simp only [State.engine_endExchange_other _ other, State.engine_dropHandoverClaim, State.engine_foldl_takeIn]

section
variable {s : State} {h : Hatch} {z : Nat} {g : HandoverGroup} (zone : s.hatchZone h = some (z, g))
include zone

theorem State.commitIn_records (cause : HandoverCause) :
    let a := s.acclimRequirement g.staging (s.engine h).caseTemp
    let t := (s.engine h).list.foldl (State.takeIn (some g.staging) a) s
    (s.commitIn h cause).cat = t.cat ∧ (s.commitIn h cause).pt = t.pt := by
  simp [State.commitIn, zone]

theorem State.cartridge_commitIn (cause : HandoverCause) (i : Nat) :
    (s.commitIn h cause).cartridge i =
      if i ∈ (s.engine h).list then
        (s.cartridge i).map (·.takenIn (some g.staging) (s.acclimRequirement g.staging (s.engine h).caseTemp))
      else s.cartridge i := by
  rw [State.cartridge, (State.commitIn_records zone cause).1]
  exact State.cartridge_foldl_takeIn _ _ _ _ _

theorem State.heldCount_commitIn (w : Table.wf s.pt.parties = true) (distinct : (s.engine h).list.Nodup)
    (cause : HandoverCause) (id : Nat) :
    (s.commitIn h cause).heldCount id =
      s.heldCount id - ((s.engine h).list.filter (fun i => (s.cartridge i).bind (·.courier) = some id)).length := by
  rw [← State.heldCount_foldl_takeIn (some g.staging) (s.acclimRequirement g.staging (s.engine h).caseTemp) distinct w id]
  unfold State.heldCount State.party State.partyKey
  rw [(State.commitIn_records zone cause).2]

end

/-- Settles O44: a SCAN is `scanReader` and a CLOSE `closeReader`, each clause one of its branches; the commit takes in the
list record by record. -/
theorem scansFillTheListAndCloseEndsIt : Obligations.ScansFillTheListAndCloseEndsIt := by
  refine ⟨?scan, ?close⟩
  case scan =>
    intro s it h z g offered size e listed
    rw [exec_scan_of_reader offered size]
    refine ⟨fun opened unknown => ?_, fun i c n o scanning found record fresh room clear picked names order courier state => ?_,
      fun i c intake found record fresh room away => ?_, fun i c opened found record => ?refused, fun closed => ?_⟩
    · rw [State.scanReader_foreign (s := s.popRing) opened unknown]
    · rw [State.scanReader_manifested (s := s.popRing) found record fresh room scanning clear picked names order courier state]
      rfl
    · rw [State.scanReader_inbound (s := s.popRing) found record fresh room intake away]
      rfl
    case refused =>
      intro answered
      refine ⟨fun again => ?_, fun fresh full => ?_, fun fresh room scanning flagged => ?_,
        fun fresh room scanning clear unfit => ?_, fun fresh room intake present => ?_⟩
      · exact congrArg _ (State.scanReader_duplicate (s := s.popRing) opened found record again _)
      · exact congrArg _ (State.scanReader_full (s := s.popRing) opened found record fresh full _)
      · exact congrArg _ (State.scanReader_flagged (s := s.popRing) found record fresh room scanning flagged _)
      · exact congrArg _ (State.scanReader_notOrdered (s := s.popRing) found record fresh room scanning clear unfit _)
      · exact congrArg _ (State.scanReader_notAway (s := s.popRing) found record fresh room intake present _)
    · rw [State.scanReader_closed (s := s.popRing) closed]
  case close =>
    intro s it h z g offered empty e
    rw [exec_close_of_reader offered empty]
    refine ⟨fun scanning unfilled => ?_, fun scanning filled => ?_, fun closed => ?_, fun intake => ?commit⟩
    · rw [State.closeReader_empty (s := s.popRing) scanning unfilled]
    · rw [State.closeReader_scanned (s := s.popRing) scanning filled]
      rfl
    · rw [State.closeReader_closed (s := s.popRing) closed]
    case commit =>
      have zone : s.popRing.hatchZone h = some (z, g) := offered.hatchZone_eq
      have record := State.cartridge_commitIn zone .close
      refine ⟨_, congrArg _ (State.closeReader_intake (s := s.popRing) intake it.src), State.engine_commitIn_same _ _ _,
        fun k other => State.engine_commitIn_other s.popRing other _, ?_, ?_, ?_, ?_, ?_, fun i c listed before => ?_,
        fun i unlisted => (record i).trans (if_neg unlisted),
        fun id w distinct => State.heldCount_commitIn zone w distinct .close id⟩
      case refine_6 =>
        have taken := (record i).trans ((if_pos listed).trans (congrArg _ before))
        exact ⟨_, taken, rfl, rfl, rfl, rfl⟩
      all_goals
        simp only [State.commitIn_frame]
        rfl

end Sys2Proof.Machine
end

section
/-! PROOFS of the three invariants. What a predicate must survive to survive every step (`KeptBurn` for a fire's course,
`KeptAct` for the operations of the commands, `KeptStep` for the commands), and the induction over the commands, made once. -/

namespace Sys2Proof.Machine

/-! ## The course of a fire -/

/-- The predicate survives what moves a fire record: unlike `KeptFire` it need not survive an update of the record alone, only
the change together with its consequences (R105, R112, R116). -/
structure KeptBurn (P : State → Prop) : Prop extends KeptSent P where
  changeFire : ∀ {s z c a f}, P s → (f (s.fire z)).releaseFault = (s.fire z).releaseFault →
    (setWf (s.fire z).knock = true → setWf (f (s.fire z)).knock = true) →
    (setWf (s.fire z).alarm = true → setWf (f (s.fire z)).alarm = true) → P (s.changeFire z c a f)
  setSets : ∀ {s z knock alarm}, P s → (setWf (s.fire z).knock = true → setWf knock = true) →
    (setWf (s.fire z).alarm = true → setWf alarm = true) →
    P (s.setFire z { s.fire z with knock := knock, alarm := alarm })
  faulted : ∀ {s z b}, P s → P ((s.setFire z { s.fire z with releaseFault := b }).postReleaseFault z b).evalFault
  resetFire : ∀ {s z}, P s → P (s.resetFire z)

namespace KeptBurn

variable {P : State → Prop} {s : State} {z : Nat}

/-- A change of the state, the count and its prescaler alone. -/
theorem changeState (k : KeptBurn P) {c : FireCause} {a : Option Nat} {st : FireState} {r : Fire → Option Nat}
    {p : Fire → Nat} (h : P s) :
    P (s.changeFire z c a (fun f => { f with state := st, remaining := r f, phase := p f })) :=
  k.changeFire h rfl id id

theorem loadCountdown (k : KeptBurn P) {c : FireCause} (h : P s) : P (s.loadCountdown z c) := by
  unfold State.loadCountdown
  dsimp only
  split
  · exact k.changeState h
  · exact k.changeState h

theorem dischargeCheck (k : KeptBurn P) (h : P s) : P (s.dischargeCheck z) := by
  unfold State.dischargeCheck
  split
  · exact h
  · split
    · exact k.loadCountdown h
    · exact k.faulted h

theorem confirmFire (k : KeptBurn P) {c : FireCause} {a : Option Nat} (h : P s) : P (s.confirmFire z c a) :=
  k.dischargeCheck (k.changeState h)

theorem firstAlarm (k : KeptBurn P) {d : Nat} (h : P s) : P (s.firstAlarm z d) := by
  unfold State.firstAlarm
  split
  · exact k.changeState h
  · exact k.confirmFire h

theorem panelActive (k : KeptBurn P) (h : P s) : P (s.panelActive z) := by
  unfold State.panelActive
  split
  · exact k.confirmFire h
  · exact h

theorem manualActive (k : KeptBurn P) (h : P s) : P (s.manualActive z) := by
  unfold State.manualActive
  split
  · exact k.confirmFire h
  · exact h

theorem abortActive (k : KeptBurn P) (h : P s) : P (s.abortActive z) := by
  unfold State.abortActive
  split
  · exact k.changeState h
  · exact h

theorem abortReleased (k : KeptBurn P) (h : P s) : P (s.abortReleased z) := by
  unfold State.abortReleased
  split
  · split
    · split
      · exact k.loadCountdown h
      · exact k.changeState h
    · exact h
  · exact h

theorem dischargeActive (k : KeptBurn P) (h : P s) : P (s.dischargeActive z) := by
  unfold State.dischargeActive
  dsimp only
  split
  · exact k.loadCountdown (k.faulted h)
  · exact h

theorem alarm (k : KeptBurn P) {d : Nat} (h : P s) : P (s.alarm z d) := by
  unfold State.alarm
  dsimp only
  split
  · exact h
  · have noted : P (s.setFire z { s.fire z with
        alarm := setInsert (s.fire z).alarm d
        knock := (if (s.fire z).state = .isolated then (s.fire z).knock else setInsert (s.fire z).knock d) }) := by
      refine k.setSets h (fun wf => ?_) setInsert_wf
      split
      · exact wf
      · exact setInsert_wf wf
    split
    case h_1 => exact k.firstAlarm noted
    case h_2 =>
      split
      · exact noted
      · exact k.confirmFire noted
    all_goals exact noted

theorem restoreDetector (k : KeptBurn P) {d : Nat} (h : P s) : P (s.restoreDetector z d) := by
  unfold State.restoreDetector
  split
  · exact h
  · exact k.setSets h id setErase_wf

theorem healthyCount (k : KeptBurn P) {n : Nat} (h : P s) : P (s.healthyCount z n) := by
  unfold State.healthyCount
  split
  · exact k.confirmFire h
  · exact h

theorem dropDetector (k : KeptBurn P) {d : Nat} (h : P s) : P (s.dropDetector z d) := k.setSets h setErase_wf setErase_wf

theorem isolateZone (k : KeptBurn P) (h : P s) : P (s.isolateZone z) := k.changeFire h rfl (fun _ => rfl) id

theorem replayAlarm (k : KeptBurn P) (h : P s) : P (s.replayAlarm z) := by
  unfold State.replayAlarm
  split
  · exact h
  · exact k.alarm h

theorem restoreZone (k : KeptBurn P) (h : P s) : P (s.restoreZone z) := by
  have replayed : P ((s.changeFire z .restore none (fun f => { f with state := .normal, knock := [] })).replayAlarm z) :=
    k.replayAlarm (k.changeFire h rfl (fun _ => rfl) id)
  unfold State.restoreZone
  dsimp only
  generalize (State.replayAlarm _ z) = s2 at replayed ⊢
  have panelled : P (if (s2.conditions z).panel = true then s2.panelActive z else s2) := by
    split
    · exact k.panelActive replayed
    · exact replayed
  generalize (if (s2.conditions z).panel = true then s2.panelActive z else s2) = s3 at panelled ⊢
  split
  · exact k.manualActive panelled
  · exact panelled

theorem removeFireZone (k : KeptBurn P) (h : P s) : P (s.removeFireZone z) := by
  have emptied : P (s.setFire z { s.fire z with knock := [], alarm := [] }) := k.setSets h (fun _ => rfl) (fun _ => rfl)
  unfold State.removeFireZone
  dsimp only
  split
  · exact k.changeState emptied
  · exact emptied

theorem conditionEdges (k : KeptBurn P) {b a : Conditions} (h : P s) : P (s.conditionEdges z b a) := by
  unfold State.conditionEdges
  dsimp only
  split
  · exact h
  · have h1 : P (if b.abort = a.abort then s else if a.abort = true then s.abortActive z else s.abortReleased z) := by
      split
      · exact h
      · split
        · exact k.abortActive h
        · exact k.abortReleased h
    generalize (if b.abort = a.abort then s else if a.abort = true then s.abortActive z else s.abortReleased z) = s1
      at h1 ⊢
    have h2 : P (if (!b.manual && a.manual) = true then s1.manualActive z else s1) := by
      split
      · exact k.manualActive h1
      · exact h1
    generalize (if (!b.manual && a.manual) = true then s1.manualActive z else s1) = s2 at h2 ⊢
    have h3 : P (if (!b.panel && a.panel) = true then s2.panelActive z else s2) := by
      split
      · exact k.panelActive h2
      · exact h2
    generalize (if (!b.panel && a.panel) = true then s2.panelActive z else s2) = s3 at h3 ⊢
    split
    · exact k.dischargeActive h3
    · exact h3

end KeptBurn

/-- A predicate that survives every single update survives a fire's course. -/
theorem KeptFire.toBurn {P : State → Prop} (k : KeptFire P) : KeptBurn P :=
  { k.toKeptSent with
    changeFire := fun h _ knock alarm => k.changeFire h knock alarm
    setSets := fun h knock alarm => k.setFire h knock alarm
    faulted := fun h => k.fault (k.postReleaseFault (k.setFire h id id))
    resetFire := fun h => k.resetFire h }

/-- Where every placing keeps the predicate, the offer of a freed place does (R22). -/
theorem Kept.offerPlace_of_place {P : State → Prop} (k : Kept P) (place : ∀ {s r}, P s → P (s.placeTx r)) {s : State}
    (h : P s) : P s.offerPlace := by
  have fire : P s.offerFire.1 := by
    unfold State.offerFire
    split
    · exact place (k.alert h)
    · split
      · dsimp only
        split
        · exact place (k.flags h id)
        · exact k.flags h id
      · exact h
  have lock : ∀ {u : State}, P u → P u.offerLock := by
    intro u hu
    unfold State.offerLock
    split
    · exact hu
    · split
      · exact hu
      · exact place (k.setLock hu)
  exact iteInduction (fun _ => fire) (fun _ => lock fire)

/-! ## The operations of the commands -/

/-- The loop interface changed, its queue's order kept and its ring no longer than it may be. -/
structure Lif.Follows (m l : Lif) : Prop where
  arrivals : m.txq.map (·.arrival) = l.txq.map (·.arrival)
  counter  : m.txArrivals = l.txArrivals
  ring     : m.ring.length ≤ 16 ∨ m.ring.length ≤ l.ring.length

/-- The trunk interface changed, its lists and the directive in hand kept. -/
structure Ti.Follows (u t : Ti) : Prop where
  ingress : u.ingress = t.ingress
  inHand  : u.inHand = t.inHand
  replies : u.replies = t.replies
  notices : u.notices = t.notices

/-- The predicate survives every operation a command makes, the replies aside. -/
structure KeptAct (P : State → Prop) : Prop extends KeptBurn P where
  lif : ∀ {s l}, P s → l.Follows s.lif → P { s with lif := l }
  offer : ∀ {s it}, P s → it ∈ s.lif.txq → P (s.removeTx it.arrival).offerPlace
  nodeLive : ∀ {s a e e'}, P s → s.node a = some e → e'.cls = e.cls → e'.zone = e.zone → e'.sup = e.sup → P (s.setNode a e')
  changeSupervision : ∀ {s a e e' w}, P s → s.node a = some e → e'.cls = e.cls → e'.zone = e.zone →
    P (s.changeSupervision a e' w)
  mark : ∀ {s a}, P s → P { s with nt := { s.nt with unknownMarks := setInsert s.nt.unknownMarks a } }
  raw : ∀ {s n v}, P s → P { s with lu := { s.lu with raw := s.lu.raw.set n v } }
  lineTimer : ∀ {s n l t}, P s → Table.get s.lu.lines n = some l →
    P { s with lu := { s.lu with lines := Table.put s.lu.lines n { l with timer := t } } }
  lineSettled : ∀ {s n l v}, P s → Table.get s.lu.lines n = some l →
    P (({ s with lu := { s.lu with
      lines := Table.put s.lu.lines n { l with settled := v, timer := none } } }).settledEdge l.zone)
  epochTimer : ∀ {s n}, P s → P { s with cu := { s.cu with epochTimer := n } }
  epochs : ∀ {s l}, P s → l.length ≤ 2 → P { s with cu := { s.cu with epochs := l } }
  addOrder : ∀ {s o n}, P s → s.ol.orders.length < 64 → P { s with ol := { orders := s.ol.orders ++ [o], lastNumber := n } }
  applyNode : ∀ {s a n}, P s → P (s.applyNode a n)
  applyZone : ∀ {s z n}, P s → P (s.applyZone z n)
  applySite : ∀ {s n}, P s → P (s.applySite n)
  applyLine : ∀ {s i n}, P s → P (s.applyLine i n)
  applyParty : ∀ {s i n}, P s → P (s.applyParty i n)
  ti : ∀ {s t}, P s → t.Follows s.ti → P { s with ti := t }
  cs : ∀ {s c}, P s → P { s with cs := c }

/-- What an entry that is judged and applied leads to, the application leads to. -/
theorem asked_ok {α : Type} {a : Asked α} {v : Option α → Option Result}
    {f : Option α → State} {t : State} (h : asked a v f = .ok t) : ∃ n, t = f n := by
  cases a with
  | outOfRange => cases h
  | remove =>
    unfold asked at h
    dsimp only at h
    split at h
    · cases h
    · cases h
      exact ⟨none, rfl⟩
  | place x =>
    unfold asked at h
    dsimp only at h
    split at h
    · cases h
    · cases h
      exact ⟨some x, rfl⟩

namespace KeptAct

variable {P : State → Prop} {s : State}

/-! ### The node table and the loop -/

theorem heardFrom (k : KeptAct P) {a : Nat} {e : NodeEntry} {b : Byte} (h : P s) (node : s.node a = some e) :
    P (s.heardFrom a e b) := by
  unfold State.heardFrom
  dsimp only
  apply k.tellCommander
  split
  · rename_i ok
    exact k.nodeLive h node rfl rfl ok.symm
  · exact k.changeSupervision h node rfl rfl

theorem nodeAccepted (k : KeptAct P) {a : Nat} {b : Byte} (h : P s) : P (s.nodeAccepted a b) := by
  unfold State.nodeAccepted
  split
  · exact h
  · rename_i e node
    split
    · exact k.nodeLive h node rfl rfl rfl
    · exact k.heardFrom h node

theorem nodeNoAnswer (k : KeptAct P) {a : Nat} (h : P s) : P (s.nodeNoAnswer a) := by
  unfold State.nodeNoAnswer
  split
  · exact h
  · rename_i e node
    split
    · exact h
    · exact k.changeSupervision h node rfl rfl

theorem lineError (k : KeptAct P) {a : Nat} (h : P s) : P (s.lineError a) := by
  unfold State.lineError
  split
  · exact h
  · rename_i e node
    exact k.nodeLive h node rfl rfl rfl

theorem unknownSource (k : KeptAct P) {a : Nat} {b : Byte} (h : P s) : P (s.unknownSource a b) := by
  unfold State.unknownSource
  split
  · exact h
  · exact k.post (k.mark h)

/-- The fields of the loop interface other than the ring and the queue. -/
theorem loop (k : KeptAct P) {l : LoopState} {q : Nat} {t c : Bool} {a : Option Answer} {n : Byte} (h : P s) :
    P { s with lif := { s.lif with loop := l, quiet := q, tail := t, congested := c, answer := a, txSeq := n } } :=
  k.lif h ⟨rfl, rfl, .inr le_rfl⟩

theorem setAnswer (k : KeptAct P) {a : Option Answer} (h : P s) : P (s.setAnswer a) := k.loop h
theorem quietLoop (k : KeptAct P) {q : Nat} (h : P s) : P (s.quietLoop q) := k.loop h
theorem setLoop (k : KeptAct P) {l : LoopState} (h : P s) : P (s.setLoop l) := k.loop h

theorem slotOver (k : KeptAct P) (h : P s) : P { s with lif := s.lif.slotOver } := by
  unfold Lif.slotOver
  split
  · exact k.loop h
  · exact h

theorem popRing (k : KeptAct P) (h : P s) : P s.popRing := by
  refine k.lif h ⟨rfl, rfl, .inr ?_⟩
  simp

/-- An item changed, its arrival number kept. -/
theorem mapTx (k : KeptAct P) {n : Nat} {f : TxItem → TxItem} (same : ∀ it, (f it).arrival = it.arrival) (h : P s) :
    P (s.mapTx n f) := by
  refine k.lif h ⟨?_, rfl, .inr le_rfl⟩
  rw [List.map_map]
  refine List.map_congr_left fun it _ => ?_
  show (if it.arrival = n then f it else it).arrival = it.arrival
  split
  · exact same it
  · rfl

theorem startItem (k : KeptAct P) {it : TxItem} (h : P s) : P (s.startItem it) := by
  unfold State.startItem
  split
  · exact k.mapTx (fun _ => rfl) h
  · exact k.loop (k.mapTx (fun _ => rfl) h)

theorem backToReady (k : KeptAct P) {it : TxItem} (h : P s) : P (s.backToReady it) := k.mapTx (fun _ => rfl) h

theorem rejectLength (k : KeptAct P) {b : Byte} (h : P s) : P (s.rejectLength b) := k.loop (k.lineError h)

theorem accept (k : KeptAct P) {t : Telegram} {e : NodeEntry} (h : P s) (node : s.node t.src.toNat = some e)
    (room : s.lif.ring.length < 16) : P (s.accept t e) := by
  have joined : P ({ s with lif := { s.lif with ring := s.lif.ring ++ [ringItem t e] } }.setAnswer (slotAnswer t .ack)) :=
    k.setAnswer (k.lif h ⟨rfl, rfl, .inl (by simpa using room)⟩)
  have accepted := k.nodeAccepted (a := t.src.toNat) (b := t.kind)
    (k.nodeLive (e' := { e with lastSeq := some t.seq }) joined node rfl rfl rfl)
  unfold State.accept
  dsimp only
  split
  · exact k.post accepted
  · exact accepted

theorem decideTelegram (k : KeptAct P) {t : Telegram} (h : P s) : P (s.decideTelegram t) := by
  unfold State.decideTelegram
  split
  · exact k.unknownSource (k.setAnswer h)
  · rename_i e node
    split
    · exact k.setAnswer h
    · split
      · exact k.accept h node ‹_›
      · split
        · unfold State.refuseBusy
          dsimp only
          split
          · exact k.setAnswer h
          · exact k.post (k.loop (k.setAnswer h))
        · exact k.setAnswer h

theorem departTx (k : KeptAct P) {it : TxItem} {o : TxOutcome} (h : P s) (mem : it ∈ s.lif.txq) : P (s.departTx it o) := by
  unfold State.departTx
  dsimp only
  apply k.handOutcome
  split
  · exact k.nodeNoAnswer (k.offer h mem)
  · exact k.offer h mem

theorem emptySlot (k : KeptAct P) {it : TxItem} (h : P s) (mem : it ∈ s.lif.txq) : P (s.emptySlot it) := by
  unfold State.emptySlot
  split
  · exact k.mapTx (fun _ => rfl) h
  · exact k.departTx h mem

theorem busySlot (k : KeptAct P) {it : TxItem} (h : P s) (mem : it ∈ s.lif.txq) : P (s.busySlot it) := by
  unfold State.busySlot
  split
  · exact k.mapTx (fun _ => rfl) h
  · exact k.departTx h mem

/-! ### The head of the ring -/

theorem takeHead (k : KeptAct P) {kind : Byte} {act : RingItem → State → State} (h : P s)
    (acts : ∀ it {u}, P u → P (act it u)) : P (s.takeHead kind act) := by
  unfold State.takeHead
  split
  · exact h
  · split
    · exact acts _ (k.popRing h)
    · exact h

theorem takeTerminal (k : KeptAct P) {kind : Byte} {act : Hatch → Side → RingItem → State → State} (h : P s)
    (acts : ∀ hatch side it {u}, P u → P (act hatch side it u)) : P (s.takeTerminal kind act) := by
  refine k.takeHead h fun it u hu => ?_
  split
  · exact hu
  · split
    · split
      · exact k.post hu
      · split
        · exact acts _ _ _ hu
        · exact k.post hu
    · exact hu

theorem sampleOf (k : KeptAct P) {src : Nat} {p : List Byte} (h : P s) : P (s.sampleOf src p) := by
  unfold State.sampleOf
  split
  · exact h
  · rename_i e node
    split
    · split
      · refine k.takeSample (k.nodeLive h node ?_ ?_ ?_) <;> (unfold NodeEntry.ranged; split <;> rfl)
      · exact h
    · exact h

theorem slotEventOf (k : KeptAct P) {src : Nat} {p : List Byte} (h : P s) : P (s.slotEventOf src p) := by
  unfold State.slotEventOf
  split
  · exact h
  · split
    · split
      · exact k.slotEmptied h
      · exact k.slotOccupied h
      · exact h
    · exact h

theorem doorOf (k : KeptAct P) {src : Nat} {p : List Byte} (h : P s) : P (s.doorOf src p) := by
  unfold State.doorOf
  split
  · split
    · exact h
    · dsimp only
      split
      · exact k.engineDoor (k.setLock h)
      · exact k.setLock h
  · exact h

/-- An engine whose list is none but emptied or one longer within its 48 places. -/
theorem courierBadge (k : KeptAct P) {hatch : Hatch} {src : Nat} {b : CourierBadge} (h : P s) :
    P (s.courierBadge hatch src b) := by
  unfold State.courierBadge
  dsimp only
  split
  · split
    · exact k.answerResult (k.setEngine h (.inl (Nat.zero_le _)))
    · exact k.answerResult h
  · exact k.answerResult h

theorem operatorBadge (k : KeptAct P) {hatch : Hatch} {src id : Nat} (h : P s) : P (s.operatorBadge hatch src id) := by
  unfold State.operatorBadge
  dsimp only
  split
  · split
    · exact k.answerResult (k.setEngine h (.inr le_rfl))
    · exact k.answerResult h
  · exact k.answerResult h

theorem scanOut (k : KeptAct P) {hatch : Hatch} {src : Nat} {l : Label} (h : P s) : P (s.scanOut hatch src l) := by
  unfold State.scanOut
  dsimp only
  split
  · exact k.answerResult h
  · split
    · exact k.answerResult h
    · split
      · exact k.answerResult h
      · split
        · exact k.answerResult h
        · split
          · exact k.answerResult h
          · split
            · split
              · refine k.answerResult (k.moveOrder (k.setCartridge (k.setEngine h (.inl ?_))))
                simp only [List.length_append, List.length_singleton]
                omega
              · exact k.answerResult h
            · exact k.answerResult h

theorem scanIn (k : KeptAct P) {hatch : Hatch} {src : Nat} {l : Label} (h : P s) : P (s.scanIn hatch src l) := by
  unfold State.scanIn
  dsimp only
  split
  · exact k.answerResult h
  · split
    · exact k.answerResult h
    · split
      · exact k.answerResult h
      · split
        · exact k.answerResult h
        · split
          · refine k.answerResult (k.setCartridge (k.setEngine h (.inl ?_)))
            simp only [List.length_append, List.length_singleton]
            omega
          · exact k.answerResult h

theorem closeReader (k : KeptAct P) {hatch : Hatch} {src : Nat} (h : P s) : P (s.closeReader hatch src) := by
  unfold State.closeReader
  dsimp only
  split
  · split
    · exact k.answerResult h
    · exact k.answerResult (k.setEngine h (.inr le_rfl))
  · exact k.commitIn h
  all_goals exact k.answerResult h

theorem confirmSide (k : KeptAct P) {hatch : Hatch} {src : Nat} {side : Side} (h : P s) :
    P (s.confirmSide hatch src side) := by
  unfold State.confirmSide
  dsimp only
  split
  · split
    · exact k.answerResult (k.setEngine h (.inr le_rfl))
    · split
      · exact k.answerResult h
      · exact k.enterRelease (k.setEngine h (.inr le_rfl))
  · exact k.answerResult h

/-! ### Epochs and orders -/

theorem epochExpiry (k : KeptAct P) (h : P s) : P s.epochExpiry := by
  have restarted : P { s with cu := { s.cu with epochTimer := secs 60 } } := k.epochTimer h
  have held : (holdEpoch s.cu.epochs s.formEpoch).length ≤ 2 := by
    unfold holdEpoch
    split <;> simp
  unfold State.epochExpiry
  dsimp only
  apply k.ordersEpoch
  split
  · exact k.epochs restarted held
  · exact k.epochWork restarted

theorem workPendingEpochs (k : KeptAct P) (h : P s) : P s.workPendingEpochs :=
  foldl_kept (fun _ _ hu => k.epochWork hu) _ (k.epochs h (Nat.zero_le 2))

theorem acceptOrder (k : KeptAct P) {i id n : Nat} {c : Cartridge} (h : P s) (room : s.ol.orders.length < 64) :
    P (s.acceptOrder i c id n) := by
  unfold State.acceptOrder
  exact iteInduction (fun _ => k.setCartridge (k.addOrder h room))
    (fun _ => k.releaseOrder (k.setCartridge (k.addOrder h room)))

theorem cancelOrder (k : KeptAct P) {o : Order} (h : P s) : P (s.cancelOrder o) := by
  unfold State.cancelOrder
  dsimp only
  apply k.closeOrder
  split
  · exact k.setCartridge (k.settlePick h)
  · exact k.settlePick h

theorem clearInspect (k : KeptAct P) {i : Nat} {c : Cartridge} (h : P s) : P (s.clearInspect i c) :=
  k.postCartridge (k.setCartridge h)

/-! ### Loads and clears -/

theorem emptyPlace (k : KeptAct P) {i : Nat} (h : P s) : P (s.emptyPlace i) := by
  unfold State.emptyPlace
  apply k.delCartridge
  split
  · split
    · exact k.lowerHeldOf h
    · exact h
  · exact h

theorem applyCatEntry (k : KeptAct P) {i : Nat} {e : CatEntry} (h : P s) : P (s.applyCatEntry i e) := by
  unfold State.applyCatEntry
  dsimp only
  split
  · exact k.raiseHeld (k.setCartridge (k.emptyPlace h))
  · exact k.setCartridge (k.emptyPlace h)

theorem loadEntry (k : KeptAct P) {t : TableId} {i : Nat} {e : List Byte} {u : State} (h : P s)
    (applied : s.loadEntry t i e = .ok u) : P u := by
  cases t with
  | node => obtain ⟨n, rfl⟩ := asked_ok applied; exact k.applyNode h
  | zone => obtain ⟨n, rfl⟩ := asked_ok applied; exact k.applyZone h
  | site =>
    simp only [State.loadEntry] at applied
    obtain ⟨n, rfl⟩ := asked_ok applied
    exact k.applySite h
  | line => obtain ⟨n, rfl⟩ := asked_ok applied; exact k.applyLine h
  | party => obtain ⟨n, rfl⟩ := asked_ok applied; exact k.applyParty h
  | catalogue =>
    simp only [State.loadEntry] at applied
    obtain ⟨n, rfl⟩ := asked_ok applied
    cases n with
    | none => exact k.emptyPlace h
    | some x => exact k.applyCatEntry h

theorem loadEntries (k : KeptAct P) {t : TableId} {first off : Nat} {es : List (List Byte)} {u : State} (h : P s)
    (applied : State.loadEntries t first off es s = .ok u) : P u := by
  induction es generalizing off s with
  | nil => cases applied; exact h
  | cons e es ih =>
    simp only [State.loadEntries] at applied
    split at applied
    · cases applied
    · exact ih (k.loadEntry h ‹_›) applied

theorem clearTable (k : KeptAct P) {t : TableId} (h : P s) : P (s.clearTable t) := by
  cases t with
  | node => exact foldl_kept (fun _ _ hu => k.applyNode hu) _ h
  | zone => exact foldl_kept (fun _ _ hu => k.applyZone hu) _ h
  | line => exact foldl_kept (fun _ _ hu => k.applyLine hu) _ h
  | site => exact k.applySite h
  | catalogue => exact foldl_kept (fun _ _ hu => k.emptyPlace hu) _ h
  | party => exact foldl_kept (fun _ _ hu => k.applyParty hu) _ h

theorem arm (k : KeptAct P) {b : Bool} (h : P s) : P (s.arm b) := k.ti h ⟨rfl, rfl, rfl, rfl⟩

theorem latchError (k : KeptAct P) {d : Directive} {b : Byte} {o : Option Nat} {r : Result} (h : P s) :
    P (s.latchError d b o r) := by
  unfold State.latchError
  split
  · exact h
  · exact k.ti h ⟨rfl, rfl, rfl, rfl⟩

end KeptAct

/-! ## The commands -/

/-- The predicate `P` survives every command: `Q` is what it is while the directive in hand has been let go and no reply has
been made yet, so that the reply has a place (R188). -/
structure KeptStep (P Q : State → Prop) : Prop where
  act : KeptAct P
  free : KeptAct Q
  drop : ∀ {s x}, P s → s.ti.inHand = some x → Q s.dropHand
  reply : ∀ {s r a p}, Q s → P { s with ti := { s.ti with
    replies := s.ti.replies ++ [r], restartArmed := a, restartPending := p } }
  hold : ∀ {s x}, Q s → P { s with ti := { s.ti with inHand := some x } }
  takeNext : ∀ {s}, P s → P s.takeNext
  ingress : ∀ {s d}, P s → s.ti.ingress.length < 4 → P { s with ti := { s.ti with ingress := s.ti.ingress ++ [d] } }
  busy : ∀ {s d r b}, P s → s.ti.replies.length < 7 → P (s.reply d r b)
  sendNotice : ∀ {s}, P s → P s.sendNotice
  replySent : ∀ {s}, P s → P { s with ti := { s.ti with sending := none, replies := s.ti.replies.tail } }
  resetWith : ∀ {s c}, P s → P (s.resetWith c)
  tick : ∀ {s}, P s → P (tick s)

/-- An ORDER that passes its checks finds a place in the list (R152). -/
theorem State.room_of_judgeOrder {s : State} {l : Label} {id : Nat} (h : s.judgeOrder l id = none) :
    s.ol.orders.length < 64 := by
  simp only [State.judgeOrder, judge, Option.map_eq_none_iff, List.find?_eq_none] at h
  simpa using h (decide (64 ≤ s.ol.orders.length), .full) (by simp)

namespace KeptStep

variable {P Q : State → Prop} {s : State}

theorem answer (k : KeptStep P Q) {d : Directive} {r : Result} {b : ReplyBody} (h : Q s) : P (s.reply d r b) := k.reply h

/-- A directive's row keeps the predicate where the decision keeps it (R187, R189). -/
theorem takeDirective (k : KeptStep P Q) {mine : List Byte → Bool} {opened : Bool} {act : Directive → State → State}
    (h : P s) (acts : ∀ d {u}, Q u → P (act d u)) : P (s.takeDirective mine opened act) := by
  unfold State.takeDirective
  split
  · rename_i d read hand
    split
    · dsimp only
      apply k.takeNext
      have dropped : Q s.dropHand := k.drop h hand
      split
      · apply acts
        split
        · exact dropped
        · exact k.free.arm dropped
      · exact k.answer dropped
    · exact h
  all_goals exact h

theorem formed (k : KeptStep P Q) {d : Directive} {n : Nat} {act : List Byte → State} (h : Q s)
    (acts : ∀ f, P (act f)) : P (s.formed d n act) := by
  unfold State.formed
  split
  · exact acts _
  · exact k.answer h

theorem refuseLoad (k : KeptStep P Q) {d : Directive} {b : Byte} {o : Option Nat} {r : Result} (h : Q s) :
    P (s.refuseLoad d b o r) := k.answer (k.free.latchError h)

theorem refuseClear (k : KeptStep P Q) {d : Directive} {b : Byte} {r : Result} (h : Q s) : P (s.refuseClear d b r) :=
  k.answer (k.free.latchError h)

theorem finishLoad (k : KeptStep P Q) {d : Directive} {b : Byte} {n first off : Nat} {t : TableId}
    {es : List (List Byte)} (h : Q s) : P (s.finishLoad d b n (State.loadEntries t first off es s)) := by
  unfold State.finishLoad
  split
  · exact k.answer (k.free.loadEntries h ‹_›)
  · exact k.refuseLoad h

theorem loadSegment (k : KeptStep P Q) {d : Directive} {b : Byte} {t : TableId} {g : Segment} (h : Q s) :
    P (s.loadSegment d b t g) := by
  unfold State.loadSegment
  split
  · exact k.refuseLoad h
  · split
    · exact k.hold h
    · exact k.finishLoad h

theorem decideClear (k : KeptStep P Q) {d : Directive} {b : Byte} {t : TableId} (h : Q s) : P (s.decideClear d b t) := by
  unfold State.decideClear
  split
  · exact k.refuseClear h
  · split
    · exact k.hold h
    · split
      · exact k.refuseClear h
      · exact k.answer (k.free.clearTable h)

theorem changeProtect (k : KeptStep P Q) {d : Directive} {b : Bool} (h : Q s) : P (s.changeProtect d b) := by
  refine k.formed h fun f => ?_
  dsimp only
  split
  · exact k.answer (k.free.ti h ⟨rfl, rfl, rfl, rfl⟩)
  · exact k.answer h

theorem arrive (k : KeptStep P Q) {d : Directive} (h : P s) : P (s.arrive d) := by
  unfold State.arrive
  split
  · exact k.takeNext (k.ingress h ‹_›)
  · split
    · exact k.busy h ‹_›
    · exact h

/-- The fields of the trunk interface other than its lists. -/
theorem setFrameTail (k : KeptStep P Q) {b : Bool} (h : P s) : P (s.setFrameTail b) := k.act.ti h ⟨rfl, rfl, rfl, rfl⟩


end KeptStep

/-- The outcome of a command is a next state that has the predicate. -/
def KeptBy (P : State → Prop) (o : Host.Outcome State Fault Refusal) : Prop := ∀ t, o = .next t → P t

theorem KeptBy.next {P : State → Prop} {u : State} (h : P u) : KeptBy P (.next u) := by
  intro t e
  cases e
  exact h

namespace KeptStep

variable {P Q : State → Prop} {s : State}

/-! ### The loop's commands -/

theorem execTelegramReceived (k : KeptStep P Q) (t : Telegram) (h : P s) : KeptBy P (execTelegramReceived t s) := by
  refine .next ?_
  split
  · split
    · exact k.act.rejectLength h
    · dsimp only
      split
      · split
        · exact k.act.decideTelegram (k.act.quietLoop h)
        · exact k.act.setAnswer (k.act.quietLoop h)
      · exact k.act.setAnswer (k.act.lineError (k.act.quietLoop h))
  · exact h

theorem execByteTimeout (k : KeptStep P Q) (b : Option Byte) (h : P s) : KeptBy P (execByteTimeout b s) := by
  refine .next ?_
  split
  · refine k.act.setAnswer (k.act.quietLoop ?_)
    split
    · exact k.act.lineError h
    · exact h
  · exact h

theorem execTransmitStart (k : KeptStep P Q) (q : Nat) (h : P s) : KeptBy P (execTransmitStart q s) := by
  refine .next ?_
  split
  · split
    · exact h
    · split
      · exact k.act.loop (k.act.startItem (k.act.slotOver h))
      · exact h
  · exact h

theorem execStartByteReceived (k : KeptStep P Q) (q : Nat) (h : P s) : KeptBy P (execStartByteReceived q s) := by
  refine .next ?_
  dsimp only
  split
  · split
    · exact k.act.loop (k.act.slotOver h)
    · exact k.act.loop (k.act.slotOver h)
  · exact h

theorem onLoop_mem {it : TxItem} (e : s.onLoop = some it) : it ∈ s.lif.txq := List.mem_of_find?_eq_some e

theorem execLostStart (k : KeptStep P Q) (h : P s) : KeptBy P (execLostStart s) := by
  refine .next ?_
  split
  · split
    · exact k.act.setLoop (k.act.backToReady h)
    · exact h
  · exact h

theorem execBrokenAttempt (k : KeptStep P Q) (h : P s) : KeptBy P (execBrokenAttempt s) := by
  refine .next ?_
  split
  · split
    · exact k.act.quietLoop (k.act.backToReady h)
    · exact h
  · exact h

theorem execUnicastSent (k : KeptStep P Q) (h : P s) : KeptBy P (execUnicastSent s) := by
  refine .next ?_
  split
  · split
    · split
      · exact h
      · exact k.act.setLoop h
    · exact h
  · exact h

theorem execBroadcastSent (k : KeptStep P Q) (h : P s) : KeptBy P (execBroadcastSent s) := by
  refine .next ?_
  split
  · split
    · split
      · exact k.act.departTx (k.act.quietLoop h) (onLoop_mem (by assumption))
      · exact h
    · exact h
  · exact h

theorem execAcknowledgeSlotAnswer (k : KeptStep P Q) (b : Byte) (h : P s) :
    KeptBy P (execAcknowledgeSlotAnswer b s) := by
  refine .next ?_
  split
  · split
    · exact h
    · have quiet : P (s.quietLoop 0) := k.act.quietLoop h
      have mem := onLoop_mem (by assumption)
      dsimp only
      split
      · exact k.act.departTx quiet mem
      · split
        · exact k.act.busySlot quiet mem
        · exact k.act.emptySlot quiet mem
  · exact h

theorem execAcknowledgeSlotExpiry (k : KeptStep P Q) (h : P s) : KeptBy P (execAcknowledgeSlotExpiry s) := by
  refine .next ?_
  split
  · split
    · exact h
    · exact k.act.emptySlot (k.act.quietLoop h) (onLoop_mem (by assumption))
  · exact h

theorem execBusyRetryDelayExpiry (k : KeptStep P Q) (n : Nat) (h : P s) :
    KeptBy P (execBusyRetryDelayExpiry n s) := by
  refine .next (k.act.mapTx (fun it => ?_) h)
  split <;> rfl

/-! ### The ring's commands -/

theorem execDetAlarm (k : KeptStep P Q) (h : P s) : KeptBy P (execDetAlarm s) := by
  refine .next (k.act.takeHead h fun it u hu => ?_)
  split
  · split
    · exact k.act.alarm hu
    · exact hu
  · exact hu

theorem execDetRestore (k : KeptStep P Q) (h : P s) : KeptBy P (execDetRestore s) := by
  refine .next (k.act.takeHead h fun it u hu => ?_)
  split
  · split
    · exact k.act.restoreDetector hu
    · exact hu
  · exact hu

theorem execDetTrouble (k : KeptStep P Q) (h : P s) : KeptBy P (execDetTrouble s) := by
  refine .next (k.act.takeHead h fun it u hu => ?_)
  split
  · exact hu
  · rename_i e node
    split
    · exact k.act.changeSupervision hu node rfl rfl
    · exact hu

theorem execStatus (k : KeptStep P Q) (h : P s) : KeptBy P (execStatus s) := by
  refine .next (k.act.takeHead h fun it u hu => ?_)
  split
  · rename_i e b node payload
    exact k.act.nodeLive hu node rfl rfl rfl
  · exact hu

theorem execSlotEvent (k : KeptStep P Q) (h : P s) : KeptBy P (execSlotEvent s) := by
  refine .next ?_
  split
  · exact h
  · exact k.act.takeHead h fun _ _ => k.act.slotEventOf

theorem execBadge (k : KeptStep P Q) (h : P s) : KeptBy P (execBadge s) := by
  refine .next (k.act.takeTerminal h fun hatch side it u hu => ?_)
  split
  · split
    · exact k.act.courierBadge hu
    · exact k.act.answerResult hu
  · split
    · exact k.act.operatorBadge hu
    · exact k.act.answerResult hu

theorem execScan (k : KeptStep P Q) (h : P s) : KeptBy P (execScan s) := by
  refine .next (k.act.takeTerminal h fun hatch side it u hu => ?_)
  split
  · split
    · exact k.act.scanOut hu
    · exact k.act.scanIn hu
    all_goals exact k.act.answerResult hu
  · exact k.act.answerResult hu

theorem execClose (k : KeptStep P Q) (h : P s) : KeptBy P (execClose s) := by
  refine .next (k.act.takeTerminal h fun hatch side it u hu => ?_)
  split
  · exact k.act.closeReader hu
  · exact k.act.answerResult hu

theorem execConfirm (k : KeptStep P Q) (h : P s) : KeptBy P (execConfirm s) := by
  refine .next (k.act.takeTerminal h fun hatch side it u hu => ?_)
  split
  · exact k.act.confirmSide hu
  · exact k.act.answerResult hu

theorem execCancel (k : KeptStep P Q) (h : P s) : KeptBy P (execCancel s) := by
  refine .next (k.act.takeTerminal h fun hatch side it u hu => ?_)
  split
  · exact k.act.abortExchange hu
  · exact k.act.answerResult hu

theorem execUndispatchedItem (k : KeptStep P Q) (h : P s) : KeptBy P (execUndispatchedItem s) := by
  refine .next ?_
  split
  · exact h
  · split
    · exact h
    · exact k.act.popRing h

/-! ### The timers -/

theorem execIntervalTimerExpiry (k : KeptStep P Q) (a : Nat) (h : P s) : KeptBy P (execIntervalTimerExpiry a s) := by
  refine .next ?_
  split
  · exact h
  · rename_i e node
    split
    · split
      · exact k.act.changeSupervision h node rfl rfl
      · exact k.act.changeSupervision h node rfl rfl
      all_goals exact h
    · exact h

theorem execRawLevelChange (k : KeptStep P Q) (n : Nat) (v : Level) (h : P s) :
    KeptBy P (execRawLevelChange n v s) := by
  refine .next ?_
  split
  · exact h
  · have moved : P { s with lu := { s.lu with raw := s.lu.raw.set n v } } := k.act.raw h
    dsimp only
    split
    · exact moved
    · exact k.act.lineTimer moved ‹_›

theorem execSettleTimerExpiry (k : KeptStep P Q) (n : Nat) (h : P s) : KeptBy P (execSettleTimerExpiry n s) := by
  refine .next ?_
  split
  · exact h
  · split
    · exact k.act.lineSettled h ‹_›
    · exact h

theorem execCountdownExpiry (k : KeptStep P Q) (z : Nat) (h : P s) : KeptBy P (execCountdownExpiry z s) := by
  refine .next ?_
  split
  · exact k.act.changeState h
  · exact h

theorem execDoorHeldTimerExpiry (k : KeptStep P Q) (a : Nat) (h : P s) : KeptBy P (execDoorHeldTimerExpiry a s) := by
  refine .next ?_
  split
  · exact h
  · split
    · dsimp only
      split
      · exact k.act.setLock h
      · exact k.act.post (k.act.setLock h)
    · exact h

theorem execMaintenanceExpiry (k : KeptStep P Q) (a : Nat) (h : P s) : KeptBy P (execMaintenanceExpiry a s) := by
  refine .next ?_
  split
  · exact h
  · split
    · exact k.act.setClaims h
    · exact h

theorem execStaleTimerExpiry (k : KeptStep P Q) (z : Nat) (h : P s) : KeptBy P (execStaleTimerExpiry z s) :=
  .next (iteInduction (fun _ => k.act.becomeStale h) (fun _ => h))

theorem execMinuteEpoch (k : KeptStep P Q) (h : P s) : KeptBy P (execMinuteEpoch s) :=
  .next (iteInduction (fun _ => k.act.epochExpiry h) (fun _ => h))

theorem execRunTimerExpiry (k : KeptStep P Q) (z : Nat) (r : Role) (h : P s) : KeptBy P (execRunTimerExpiry z r s) := by
  refine .next ?_
  split
  · split
    · exact k.act.runElapsed h
    · exact h
  · exact h

theorem execRestTimerExpiry (k : KeptStep P Q) (z : Nat) (r : Role) (h : P s) : KeptBy P (execRestTimerExpiry z r s) := by
  refine .next ?_
  split
  · split
    · exact k.act.restOver h
    · exact h
  · exact h

theorem execOpenTimerExpiry (k : KeptStep P Q) (hatch : Hatch) (h : P s) : KeptBy P (execOpenTimerExpiry hatch s) :=
  .next (iteInduction (fun _ => k.act.abortExchange h) (fun _ => h))

theorem execConfirmWindowExpiry (k : KeptStep P Q) (hatch : Hatch) (h : P s) :
    KeptBy P (execConfirmWindowExpiry hatch s) :=
  .next (iteInduction (fun _ => k.act.setEngine h (.inr le_rfl)) (fun _ => h))

theorem execUnlockWindowExpiry (k : KeptStep P Q) (hatch : Hatch) (h : P s) :
    KeptBy P (execUnlockWindowExpiry hatch s) :=
  .next (iteInduction (fun _ => k.act.abortExchange h) (fun _ => h))

theorem execIntakeTimerExpiry (k : KeptStep P Q) (hatch : Hatch) (h : P s) : KeptBy P (execIntakeTimerExpiry hatch s) :=
  .next (iteInduction (fun _ => k.act.commitIn h) (fun _ => h))

theorem execCatalogueCompletion (k : KeptStep P Q) (h : P s) : KeptBy P (execCatalogueCompletion s) := by
  refine .next ?_
  split
  · exact k.takeNext (k.act.workPendingEpochs (k.finishLoad (k.drop h ‹_›)))
  · refine k.takeNext (k.act.workPendingEpochs ?_)
    have dropped : Q s.dropHand := k.drop h ‹_›
    split
    · exact k.refuseClear dropped
    · exact k.answer (k.free.clearTable dropped)
  all_goals exact h

theorem execCodeWriteCompletion (k : KeptStep P Q) (h : P s) : KeptBy P (execCodeWriteCompletion s) := by
  refine .next ?_
  split
  · exact k.act.cs h
  · exact h

/-! ### The directives -/

theorem execIdentify (k : KeptStep P Q) (h : P s) : KeptBy P (execIdentify s) :=
  .next (k.takeDirective h fun _ _ hu => k.formed hu fun _ => k.answer hu)

theorem execCheckCode (k : KeptStep P Q) (h : P s) : KeptBy P (execCheckCode s) := by
  refine .next (k.takeDirective h fun _ _ hu => k.formed hu fun _ => ?_)
  split <;> exact k.answer (k.free.ti hu ⟨rfl, rfl, rfl, rfl⟩)

theorem execSetCode (k : KeptStep P Q) (h : P s) : KeptBy P (execSetCode s) := by
  refine .next (k.takeDirective h fun _ _ hu => k.formed hu fun _ => ?_)
  split
  · exact k.answer hu
  · exact k.answer (k.free.cs hu)

theorem execReadStatus (k : KeptStep P Q) (h : P s) : KeptBy P (execReadStatus s) :=
  .next (k.takeDirective h fun _ _ hu => k.formed hu fun _ => k.answer hu)

theorem execClearStatus (k : KeptStep P Q) (h : P s) : KeptBy P (execClearStatus s) :=
  .next (k.takeDirective h fun _ _ hu => k.formed hu fun _ => k.answer (k.free.ti hu ⟨rfl, rfl, rfl, rfl⟩))

theorem execSetClock (k : KeptStep P Q) (h : P s) : KeptBy P (execSetClock s) :=
  .next (k.takeDirective h fun _ _ hu => k.formed hu fun _ => k.answer (k.free.ti hu ⟨rfl, rfl, rfl, rfl⟩))

theorem execLoadSegment (k : KeptStep P Q) (h : P s) : KeptBy P (execLoadSegment s) := by
  refine .next (k.takeDirective h fun _ _ hu => ?_)
  split
  · split
    · exact k.refuseLoad hu
    · split
      · exact k.loadSegment hu
      · exact k.refuseLoad hu
  · exact k.answer hu

theorem execClearTable (k : KeptStep P Q) (h : P s) : KeptBy P (execClearTable s) := by
  refine .next (k.takeDirective h fun _ _ hu => ?_)
  split
  · split
    · split
      · exact k.decideClear hu
      · exact k.refuseClear hu
    · exact k.refuseClear hu
  · exact k.refuseClear hu
  · exact k.answer hu

theorem execProtect (k : KeptStep P Q) (h : P s) : KeptBy P (execProtect s) :=
  .next (k.takeDirective h fun _ _ hu => k.changeProtect hu)

theorem execUnprotect (k : KeptStep P Q) (h : P s) : KeptBy P (execUnprotect s) :=
  .next (k.takeDirective h fun _ _ hu => k.changeProtect hu)

theorem execReadEntry (k : KeptStep P Q) (h : P s) : KeptBy P (execReadEntry s) :=
  .next (k.takeDirective h fun _ _ hu => k.formed hu fun _ => k.answer hu)

theorem execOrder (k : KeptStep P Q) (h : P s) : KeptBy P (execOrder s) := by
  refine .next (k.takeDirective h fun _ u hu => k.formed hu fun f => ?_)
  dsimp only
  split
  · rename_i accepted _
    split
    · exact k.answer (k.free.acceptOrder hu (State.room_of_judgeOrder accepted))
    · exact k.answer hu
  · exact k.answer hu
  · exact k.answer hu

theorem execCancelOrder (k : KeptStep P Q) (h : P s) : KeptBy P (execCancelOrder s) := by
  refine .next (k.takeDirective h fun _ u hu => k.formed hu fun f => ?_)
  dsimp only
  split
  · exact k.answer hu
  · split
    · exact k.answer hu
    · split
      · exact k.answer hu
      · exact k.answer (k.free.cancelOrder hu)

theorem execInspectClear (k : KeptStep P Q) (h : P s) : KeptBy P (execInspectClear s) := by
  refine .next (k.takeDirective h fun _ u hu => k.formed hu fun f => ?_)
  split
  · exact k.answer hu
  · split
    · exact k.answer hu
    · split
      · exact k.answer hu
      · split
        · exact k.answer hu
        · exact k.answer (k.free.clearInspect hu)

theorem execFireReset (k : KeptStep P Q) (h : P s) : KeptBy P (execFireReset s) := by
  refine .next (k.takeDirective h fun _ u hu => k.formed hu fun f => ?_)
  dsimp only
  split
  · exact k.answer hu
  · split
    · exact k.answer hu
    · split
      · exact k.answer hu
      · exact k.answer (k.free.resetFire hu)

theorem execIsolate (k : KeptStep P Q) (h : P s) : KeptBy P (execIsolate s) := by
  refine .next (k.takeDirective h fun _ u hu => k.formed hu fun f => ?_)
  dsimp only
  split
  · exact k.answer hu
  · split
    · exact k.answer hu
    · split
      · exact k.answer (k.free.isolateZone hu)
      · exact k.answer (k.free.isolateZone hu)
      all_goals exact k.answer hu

theorem execRestore (k : KeptStep P Q) (h : P s) : KeptBy P (execRestore s) := by
  refine .next (k.takeDirective h fun _ u hu => k.formed hu fun f => ?_)
  dsimp only
  split
  · exact k.answer hu
  · split
    · exact k.answer (k.free.restoreZone hu)
    · exact k.answer hu

theorem execMaintUnlock (k : KeptStep P Q) (h : P s) : KeptBy P (execMaintUnlock s) := by
  refine .next (k.takeDirective h fun _ u hu => k.formed hu fun f => ?_)
  dsimp only
  split
  · exact k.answer hu
  · split
    · exact k.answer hu
    · split
      · exact k.answer hu
      · exact k.answer (k.free.setClaims hu)

theorem execPassDown (k : KeptStep P Q) (h : P s) : KeptBy P (execPassDown s) := by
  refine .next (k.takeDirective h fun _ u hu => ?_)
  split
  · split
    · split
      · exact k.answer hu
      · exact k.act.requestTx (k.hold hu)
    · exact k.answer hu
  · exact k.answer hu

theorem execQueryNode (k : KeptStep P Q) (h : P s) : KeptBy P (execQueryNode s) := by
  refine .next (k.takeDirective h fun _ u hu => k.formed hu fun f => ?_)
  dsimp only
  split
  · exact k.answer hu
  · split
    · exact k.answer hu
    · rename_i e node
      exact k.answer (k.free.nodeLive hu node rfl rfl rfl)

theorem execRestartPhase1 (k : KeptStep P Q) (h : P s) : KeptBy P (execRestartPhase1 s) := by
  refine .next (k.takeDirective h fun _ u hu => k.formed hu fun f => ?_)
  split
  · split
    · exact k.answer hu
    · exact k.answer (k.free.arm hu)
  · exact k.answer hu

theorem execRestartPhase2 (k : KeptStep P Q) (h : P s) : KeptBy P (execRestartPhase2 s) := by
  refine .next (k.takeDirective h fun _ u hu => ?_)
  split
  · exact k.answer hu
  · split
    · exact k.answer (k.free.arm hu)
    · exact k.reply hu

theorem execUnknownDirective (k : KeptStep P Q) (h : P s) : KeptBy P (execUnknownDirective s) :=
  .next (k.takeDirective h fun _ _ hu => k.answer hu)

/-! ### The trunk's link and the resets -/

theorem execFrameReceived (k : KeptStep P Q) (f : Frame) (h : P s) : KeptBy P (execFrameReceived f s) := by
  refine .next ?_
  split
  · exact h
  · split
    · exact k.setFrameTail h
    · dsimp only
      split
      · exact k.arrive (k.setFrameTail h)
      · exact k.setFrameTail h

theorem execFrameLengthAbove600 (k : KeptStep P Q) (h : P s) : KeptBy P (execFrameLengthAbove600 s) :=
  .next (iteInduction (fun _ => k.setFrameTail h) (fun _ => h))

theorem execTrunkSendStart (k : KeptStep P Q) (h : P s) : KeptBy P (execTrunkSendStart s) := by
  refine .next ?_
  split
  · split
    · exact k.sendNotice h
    · split
      · exact k.act.ti h ⟨rfl, rfl, rfl, rfl⟩
      · exact k.sendNotice h
  · exact h

theorem execTrunkSendComplete (k : KeptStep P Q) (h : P s) : KeptBy P (execTrunkSendComplete s) := by
  refine .next ?_
  split
  · exact h
  · exact k.act.ti h ⟨rfl, rfl, rfl, rfl⟩
  · split
    · exact k.resetWith h
    · exact k.takeNext (k.replySent h)

theorem execCarrierLoss (k : KeptStep P Q) (h : P s) : KeptBy P (execCarrierLoss s) :=
  .next (iteInduction (fun _ => k.act.ti h ⟨rfl, rfl, rfl, rfl⟩) (fun _ => h))

theorem execCarrierReturn (k : KeptStep P Q) (h : P s) : KeptBy P (execCarrierReturn s) :=
  .next (iteInduction (fun _ => h) (fun _ => k.act.ti h ⟨rfl, rfl, rfl, rfl⟩))

/-- Every command keeps the predicate. -/
theorem exec (k : KeptStep P Q) (i : Instr) (h : P s) : KeptBy P (exec i s) := by
  cases i with
  | telegramReceived t => exact k.execTelegramReceived t h
  | byteTimeout b => exact k.execByteTimeout b h
  | sample => exact .next (k.act.takeHead h fun _ _ => k.act.sampleOf)
  | detAlarm => exact k.execDetAlarm h
  | detRestore => exact k.execDetRestore h
  | detTrouble => exact k.execDetTrouble h
  | slotEvent => exact k.execSlotEvent h
  | doorState => exact .next (k.act.takeHead h fun _ _ => k.act.doorOf)
  | status => exact k.execStatus h
  | badge => exact k.execBadge h
  | scan => exact k.execScan h
  | close => exact k.execClose h
  | confirm => exact k.execConfirm h
  | cancel => exact k.execCancel h
  | undispatchedItem => exact k.execUndispatchedItem h
  | transmitStart q => exact k.execTransmitStart q h
  | lostStart => exact k.execLostStart h
  | brokenAttempt => exact k.execBrokenAttempt h
  | unicastSent => exact k.execUnicastSent h
  | broadcastSent => exact k.execBroadcastSent h
  | acknowledgeSlotAnswer b => exact k.execAcknowledgeSlotAnswer b h
  | acknowledgeSlotExpiry => exact k.execAcknowledgeSlotExpiry h
  | busyRetryDelayExpiry n => exact k.execBusyRetryDelayExpiry n h
  | intervalTimerExpiry a => exact k.execIntervalTimerExpiry a h
  | rawLevelChange n v => exact k.execRawLevelChange n v h
  | settleTimerExpiry n => exact k.execSettleTimerExpiry n h
  | countdownExpiry z => exact k.execCountdownExpiry z h
  | doorHeldTimerExpiry a => exact k.execDoorHeldTimerExpiry a h
  | maintenanceExpiry a => exact k.execMaintenanceExpiry a h
  | staleTimerExpiry z => exact k.execStaleTimerExpiry z h
  | minuteEpoch => exact k.execMinuteEpoch h
  | runTimerExpiry z r => exact k.execRunTimerExpiry z r h
  | restTimerExpiry z r => exact k.execRestTimerExpiry z r h
  | openTimerExpiry e => exact k.execOpenTimerExpiry e h
  | confirmWindowExpiry e => exact k.execConfirmWindowExpiry e h
  | unlockWindowExpiry e => exact k.execUnlockWindowExpiry e h
  | intakeTimerExpiry e => exact k.execIntakeTimerExpiry e h
  | catalogueCompletion => exact k.execCatalogueCompletion h
  | frameReceived f => exact k.execFrameReceived f h
  | frameByteTimeout => exact .next (k.setFrameTail h)
  | identify => exact k.execIdentify h
  | checkCode => exact k.execCheckCode h
  | setCode => exact k.execSetCode h
  | readStatus => exact k.execReadStatus h
  | clearStatus => exact k.execClearStatus h
  | setClock => exact k.execSetClock h
  | loadSegment => exact k.execLoadSegment h
  | readEntry => exact k.execReadEntry h
  | clearTable => exact k.execClearTable h
  | protect => exact k.execProtect h
  | unprotect => exact k.execUnprotect h
  | order => exact k.execOrder h
  | cancelOrder => exact k.execCancelOrder h
  | inspectClear => exact k.execInspectClear h
  | fireReset => exact k.execFireReset h
  | isolate => exact k.execIsolate h
  | restore => exact k.execRestore h
  | maintUnlock => exact k.execMaintUnlock h
  | passDown => exact k.execPassDown h
  | queryNode => exact k.execQueryNode h
  | restartPhase1 => exact k.execRestartPhase1 h
  | restartPhase2 => exact k.execRestartPhase2 h
  | unknownDirective => exact k.execUnknownDirective h
  | codeWriteCompletion => exact k.execCodeWriteCompletion h
  | trunkSendStart => exact k.execTrunkSendStart h
  | trunkSendComplete => exact k.execTrunkSendComplete h
  | carrierLoss => exact k.execCarrierLoss h
  | carrierReturn => exact k.execCarrierReturn h
  | powerOn => exact .next (k.resetWith h)
  | pin => exact .next (k.resetWith h)
  | supplyLow => exact .next (k.resetWith h)
  | startByteReceived q => exact k.execStartByteReceived q h
  | lengthAbove40 b => exact .next (iteInduction (fun _ => k.act.rejectLength h) (fun _ => h))
  | frameLengthAbove600 => exact k.execFrameLengthAbove600 h

/-- Every step keeps the predicate, where it does not look at the queue of commands. -/
theorem step (k : KeptStep P Q) (queue : ∀ {s l}, P s → P { s with pending := l }) {t : State} (h : P s)
    (e : step s = .next t) : P t := by
  unfold Machine.step at e
  split at e
  · cases e
    exact k.tick h
  · exact k.exec _ (queue h) t e

end KeptStep

/-! ## Form and capacities (O5) -/

/-- Form and capacities stand; with `free`, moreover, no directive is in hand and a reply has a place (R188). -/
def State.SoundFor (free : Bool) (s : State) : Prop :=
  s.Sound ∧ (free = true → s.ti.inHand = none ∧ s.ti.replies.length ≤ 7)

namespace State.SoundFor

variable {free : Bool} {s : State}

/-- An update that leaves the directive in hand and the replies. -/
theorem of_ti {t : State} (h : s.SoundFor free) (sound : t.Sound) (ti : t.ti.inHand = s.ti.inHand)
    (replies : t.ti.replies = s.ti.replies) : t.SoundFor free :=
  ⟨sound, fun f => by rw [ti, replies]; exact h.2 f⟩

theorem keptFire (free : Bool) : KeptFire (State.SoundFor free) where
  post h := h.of_ti (Sound.kept.post h.1) rfl rfl
  passDownOutcome {s o} h := by
    refine ⟨Sound.kept.passDownOutcome h.1, fun f => ?_⟩
    have empty := h.2 f
    rwa [show s.passDownOutcome o = s by unfold State.passDownOutcome; rw [empty.1]]
  setLock h := h.of_ti (Sound.kept.setLock h.1) rfl rfl
  delLock h := h.of_ti (Sound.kept.delLock h.1) rfl rfl
  setActuator h := h.of_ti (Sound.kept.setActuator h.1) rfl rfl
  delActuator h := h.of_ti (Sound.kept.delActuator h.1) rfl rfl
  setOrder h := h.of_ti (Sound.kept.setOrder h.1) rfl rfl
  delOrder h := h.of_ti (Sound.kept.delOrder h.1) rfl rfl
  place h n := h.of_ti (Sound.kept.place h.1 n) rfl rfl
  swap h m := h.of_ti (Sound.kept.swap h.1 m) rfl rfl
  mapOrigins h := h.of_ti (Sound.kept.mapOrigins h.1) rfl rfl
  flags h u := h.of_ti (Sound.kept.flags h.1 u) rfl rfl
  cleared h := h.of_ti (Sound.kept.cleared h.1) rfl rfl
  alert h := h.of_ti (Sound.kept.alert h.1) rfl rfl
  setCartridge h := h.of_ti (Sound.kept.setCartridge h.1) rfl rfl
  delCartridge h := h.of_ti (Sound.kept.delCartridge h.1) rfl rfl
  party h := h.of_ti (Sound.kept.party h.1) rfl rfl
  setEngine {s e x} h n := by
    refine h.of_ti (Sound.kept.setEngine h.1 n) ?_ ?_ <;> cases e <;> rfl
  setClimate h := h.of_ti (Sound.kept.setClimate h.1) rfl rfl
  setFire h k a := h.of_ti (Sound.kept.setFire h.1 k a) rfl rfl
  setActive h := h.of_ti (Sound.kept.setActive h.1) rfl rfl
  fault h := h.of_ti (Sound.kept.fault h.1) rfl rfl
  release h := h.of_ti (Sound.kept.release h.1) rfl rfl
  conditions h := h.of_ti (Sound.kept.conditions h.1) rfl rfl
  setNode h := h.of_ti (Sound.kept.setNode h.1) rfl rfl
  faultSilent h := h.of_ti (Sound.kept.faultSilent h.1) rfl rfl
  healthy h := h.of_ti (Sound.kept.healthy h.1) rfl rfl

theorem lif {l : Lif} (h : s.SoundFor free) (follows : l.Follows s.lif) : SoundFor free { s with lif := l } := by
  obtain ⟨arrivals, counter, ring⟩ := follows
  have length : l.txq.length = s.lif.txq.length := by simpa using congrArg List.length arrivals
  refine h.of_ti { h.1 with arrivals := ?_, below := ?_, ring := ?_, queue := ?_ } rfl rfl
  · exact (congrArg setWf arrivals).trans h.1.arrivals
  · intro it mem
    obtain ⟨x, old, same⟩ := List.mem_map.1 (arrivals ▸ List.mem_map_of_mem mem : it.arrival ∈ s.lif.txq.map (·.arrival))
    exact (same ▸ h.1.below x old).trans_eq counter.symm
  · have := h.1.ring
    show l.ring.length ≤ 16
    omega
  · exact length.trans_le h.1.queue

/-- The queue without an item has a place to offer. -/
theorem offer {it : TxItem} (h : s.SoundFor free) (mem : it ∈ s.lif.txq) :
    SoundFor free (s.removeTx it.arrival).offerPlace := by
  have shorter : (s.removeTx it.arrival).lif.txq.length < 24 :=
    (filter_length_lt mem (by simp)).trans_le h.1.queue
  refine (keptFire free).toKept.offerPlace (h.of_ti { h.1 with arrivals := ?_, below := ?_, queue := ?_ } rfl rfl) shorter
  · show setWf ((s.lif.txq.filter (fun x => x.arrival ≠ it.arrival)).map (·.arrival)) = true
    rw [filter_map_arrival]
    exact filter_setWf _ h.1.arrivals
  · exact fun x hx => h.1.below x (List.mem_filter.1 hx).1
  · exact shorter.le

theorem recountFor {e : Option NodeEntry} (h : s.SoundFor free) : SoundFor free (s.recountFor e) := by
  have k := keptFire free
  unfold State.recountFor
  split
  · split
    · refine k.recountHealthy (k.evalFault ?_)
      exact h.of_ti { h.1 with detectors := (List.length_set).trans h.1.detectors } rfl rfl
    · exact h
  · exact h

theorem reloadLock {a : Nat} {old new : Option NodeEntry} (h : s.SoundFor free) :
    SoundFor free (s.reloadLock a old new) := by
  have k := (keptFire free).toKept
  unfold State.reloadLock
  split
  · exact k.settleFireHold h
  · exact k.removeLock h
  · exact k.createLock h
  · exact h

theorem applyNode {a : Nat} {n : Option NodeEntry} (h : s.SoundFor free) : SoundFor free (s.applyNode a n) := by
  have k := keptFire free
  have marks : setWf (if ((s.node a).isSome && n.isNone) = true then setErase s.nt.unknownMarks a
      else s.nt.unknownMarks) = true := by
    split
    · exact setErase_wf h.1.marks
    · exact h.1.marks
  have placed : SoundFor free { s with nt := { s.nt with
      nodes := Table.set s.nt.nodes a n
      unknownMarks := if ((s.node a).isSome && n.isNone) = true then setErase s.nt.unknownMarks a
        else s.nt.unknownMarks } } :=
    h.of_ti { h.1 with nodes := Table.wf_set _ _ h.1.nodes, marks := marks } rfl rfl
  unfold State.applyNode
  dsimp only
  refine k.recountDown (reloadLock (recountFor (recountFor ?_)))
  split
  · split
    · exact k.dropDetector placed
    · exact placed
  · exact placed

theorem applyZone {z : Nat} {n : Option ZoneEntry} (h : s.SoundFor free) : SoundFor free (s.applyZone z n) := by
  have k := keptFire free
  unfold State.applyZone
  dsimp only
  have emptied : SoundFor free (if (((s.zone z).bind (·.climate)).isSome && !(n.bind (·.climate)).isSome) = true
      then s.emptyClimate z else s) := by
    split
    · exact k.emptyClimate h
    · exact h
  generalize (if (((s.zone z).bind (·.climate)).isSome && !(n.bind (·.climate)).isSome) = true
      then s.emptyClimate z else s) = s1 at emptied ⊢
  have placed : SoundFor free { s1 with zt := { s1.zt with zones := Table.set s1.zt.zones z n } } :=
    emptied.of_ti { emptied.1 with zones := Table.wf_set _ _ emptied.1.zones } rfl rfl
  have reloaded : ∀ {u : State}, SoundFor free u → SoundFor free (State.evalFault u.reloadConditions) := fun hu =>
    k.evalFault (hu.of_ti { hu.1 with conditions := by simp [State.reloadConditions, zoneNumbers] } rfl rfl)
  refine iteInduction (fun _ => k.removeFireZone ?_) (fun _ => ?_) <;>
    refine reloaded (k.settleFireHolds (k.reloadPlant ?_)) <;>
    exact iteInduction (fun _ => k.setClimate placed)
      (fun _ => iteInduction (fun _ => k.setClimate placed) (fun _ => placed))

theorem keptAct (free : Bool) : KeptAct (State.SoundFor free) :=
  { (keptFire free).toBurn with
    lif := lif
    offer := offer
    nodeLive := fun h _ _ _ _ => (keptFire free).setNode h
    changeSupervision := fun h _ _ _ => (keptFire free).changeSupervision h
    mark := fun h => h.of_ti { h.1 with marks := setInsert_wf h.1.marks } rfl rfl
    raw := fun h => h.of_ti { h.1 with raw := (List.length_set).trans h.1.raw } rfl rfl
    lineTimer := fun h _ => h.of_ti { h.1 with lines := Table.wf_put _ _ h.1.lines } rfl rfl
    lineSettled := fun h _ =>
      (keptFire free).settledEdge (h.of_ti { h.1 with lines := Table.wf_put _ _ h.1.lines } rfl rfl)
    epochTimer := fun h => h.of_ti { h.1 with } rfl rfl
    epochs := fun h l => h.of_ti { h.1 with epochs := l } rfl rfl
    addOrder := fun h room => h.of_ti { h.1 with orders := by simpa using room } rfl rfl
    applyNode := applyNode
    applyZone := applyZone
    applySite := fun h => (keptFire free).evalFault (h.of_ti { h.1 with } rfl rfl)
    applyLine := fun h => h.of_ti { h.1 with
      lines := Table.wf_set _ _ h.1.lines
      conditions := by simp [State.applyLine, State.reloadConditions, zoneNumbers] } rfl rfl
    applyParty := fun h => h.of_ti { h.1 with parties := Table.wf_set _ _ h.1.parties } rfl rfl
    ti := fun {s t} h follows => by
      obtain ⟨ingress, inHand, replies, notices⟩ := follows
      refine h.of_ti { h.1 with ingress := ?_, replies := ?_, hand := ?_, notices := ?_, sorted := ?_ } inHand replies
      · exact ingress ▸ h.1.ingress
      · exact replies ▸ h.1.replies
      · exact inHand ▸ replies ▸ h.1.hand
      · exact notices ▸ h.1.notices
      · exact notices ▸ h.1.sorted
    cs := fun h => h.of_ti { h.1 with } rfl rfl }


end State.SoundFor

theorem tick_nodes (s : State) : (tick s).nt.nodes
    = tableMap (fun e : NodeEntry => { e with timer := tickTimer e.timer }) s.nt.nodes := rfl

theorem tick_lines (s : State) : (tick s).lu.lines
    = tableMap (fun l : LineEntry => { l with timer := tickTimer l.timer }) s.lu.lines := rfl

theorem tickTi_lists (t : Ti) : (tickTi t).ingress = t.ingress ∧ (tickTi t).inHand = t.inHand
    ∧ (tickTi t).replies = t.replies ∧ (tickTi t).notices = t.notices := by
  unfold tickTi
  split <;> exact ⟨rfl, rfl, rfl, rfl⟩

theorem tickFire_other (f : Fire) : (tickFire f).state = f.state ∧ (tickFire f).knock = f.knock
    ∧ (tickFire f).alarm = f.alarm ∧ (tickFire f).releaseFault = f.releaseFault := by
  unfold tickFire
  split
  · split
    · exact ⟨rfl, rfl, rfl, rfl⟩
    · split <;> exact ⟨rfl, rfl, rfl, rfl⟩
  · exact ⟨rfl, rfl, rfl, rfl⟩

theorem Lif.slotOver_other (l : Lif) : l.slotOver.txq = l.txq ∧ l.slotOver.txArrivals = l.txArrivals
    ∧ l.slotOver.ring = l.ring := by
  unfold Lif.slotOver
  split <;> exact ⟨rfl, rfl, rfl⟩

theorem tickLif_follows (l : Lif) : (tickLif l).Follows l := by
  obtain ⟨txq, counter, ring⟩ := l.slotOver_other
  refine ⟨?_, counter, .inr (congrArg List.length ring).le⟩
  simp only [tickLif, txq, List.map_map]
  refine List.map_congr_left fun it _ => ?_
  dsimp only [Function.comp]
  split <;> rfl

namespace State.SoundFor

variable {s : State}

/-- A tick moves timers and counts in their places. -/
theorem tick (h : s.SoundFor false) : SoundFor false (tick s) := by
  obtain ⟨ingress, inHand, replies, notices⟩ := tickTi_lists s.ti
  have looped : SoundFor false { s with lif := tickLif s.lif } := h.lif (tickLif_follows s.lif)
  refine ⟨{ looped.1 with
    nodes := tick_nodes s ▸ tableMap_wf _ h.1.nodes
    lines := tick_lines s ▸ tableMap_wf _ h.1.lines
    climate := (List.length_map _).trans h.1.climate
    actuators := tableMap_wf _ h.1.actuators
    fire := (List.length_map _).trans h.1.fire
    sets := ?_
    locks := tableMap_wf _ h.1.locks
    ingress := (congrArg List.length ingress).trans_le h.1.ingress
    replies := (congrArg List.length replies).trans_le h.1.replies
    hand := ?_
    notices := (congrArg List.length notices).trans_le h.1.notices
    sorted := (congrArg noticesSorted notices).trans h.1.sorted }, nofun⟩
  · intro f mem
    obtain ⟨g, old, rfl⟩ := List.mem_map.1 mem
    rw [(tickFire_other g).2.1, (tickFire_other g).2.2.1]
    exact h.1.sets g old
  · show (tickTi s.ti).inHand = none ∨ (tickTi s.ti).replies.length ≤ 7
    rw [inHand, replies]
    exact h.1.hand

/-- After a reset every list is empty but for the one notice, and the levels at the pins stand. -/
theorem resetWith {c : ResetCauses} (h : s.SoundFor false) : SoundFor false (s.resetWith c) := by
  have reset : State.reset.Sound := (State.sound_iff _).2 (by decide)
  exact ⟨{ reset with raw := h.1.raw, notices := Nat.le_add_left 1 31, sorted := rfl }, nofun⟩

theorem keptStep : KeptStep (State.SoundFor false) (State.SoundFor true) where
  act := keptAct false
  free := keptAct true
  drop h hand := ⟨h.1.dropHand, fun _ => ⟨rfl, h.1.room hand⟩⟩
  reply h := by
    obtain ⟨free, room⟩ := h.2 rfl
    exact ⟨{ h.1 with replies := by simpa using Nat.lt_succ_of_le room, hand := .inl free }, nofun⟩
  hold h := ⟨{ h.1 with hand := .inr (h.2 rfl).2 }, nofun⟩
  takeNext h := ⟨h.1.takeNext, nofun⟩
  ingress h room := ⟨{ h.1 with ingress := by simpa using room }, nofun⟩
  busy h room := by
    refine ⟨{ h.1 with replies := ?_, hand := .inr ?_ }, nofun⟩ <;>
      simp only [State.reply, List.length_append, List.length_singleton] <;> omega
  sendNotice {s} h := by
    unfold State.sendNotice
    split
    · exact h
    · rename_i n rest queue
      have sorted := h.1.sorted
      have notices := h.1.notices
      rw [queue] at sorted notices
      exact ⟨{ h.1 with notices := (Nat.le_succ _).trans notices, sorted := (noticesSorted_cons.1 sorted).2 }, nofun⟩
  replySent {s} h := by
    have shorter : s.ti.replies.tail.length ≤ s.ti.replies.length := by simp
    exact ⟨{ h.1 with replies := shorter.trans h.1.replies, hand := h.1.hand.imp_right shorter.trans }, nofun⟩
  resetWith := resetWith
  tick := tick

end State.SoundFor

/-- Settles O5: form and capacities, clause by clause (`State.Sound`), survive every command and every tick. -/
theorem everyStepKeepsFormAndCapacity : Obligations.EveryStepKeepsFormAndCapacity := by
  intro s t form capacity stepped
  have sound : s.SoundFor false := ⟨s.sound_iff.2 ⟨form, capacity⟩, nofun⟩
  exact t.sound_iff.1 (State.SoundFor.keptStep.step (fun h => ⟨{ h.1 with }, nofun⟩) sound stepped).1

end Sys2Proof.Machine
end

section
/-! PROOF that FIRE_ACTIVE follows the zones (R119): a change of fire state ends in its evaluation, and nothing else moves a
fire state or the flag. -/

namespace Sys2Proof.Machine

/-- FIRE_ACTIVE is as the fire states have it. -/
def State.Told (s : State) : Prop := s.fireActiveTrue = true

theorem State.told_iff (s : State) :
    s.Told ↔ s.fz.fireActive = (s.fz.fire.map (·.state)).any FireState.isCounting := by
  rw [State.Told, State.fireActiveTrue, State.fireActiveNow, List.any_map, decide_eq_true_iff]
  rfl

namespace State.Told

variable {s t : State}

/-- The same fire states and the same flag. -/
theorem of_burning (h : s.Told) (same : State.Burning (s.fz.fire.map (·.state)) s.fz.fireActive t) : t.Told := by
  rw [told_iff, same.1, same.2]
  exact s.told_iff.1 h

theorem of_fz (h : s.Told) (same : t.fz = s.fz) : t.Told := h.of_burning ⟨by rw [same], by rw [same]⟩

/-- A predicate of the fire states and the flag survives what each pair of them survives. -/
theorem keptSent : KeptSent State.Told where
  post h := h
  passDownOutcome h := h.of_burning ((Burning.kept _ _).passDownOutcome ⟨rfl, rfl⟩)
  setLock h := h
  delLock h := h
  setActuator h := h
  delActuator h := h
  setOrder h := h
  delOrder h := h
  place h _ := h
  swap h _ := h
  mapOrigins h := h
  flags h u := h.of_burning ((Burning.kept _ _).flags ⟨rfl, rfl⟩ u)
  cleared h := h.of_burning ((Burning.kept _ _).cleared ⟨rfl, rfl⟩)
  alert h := h
  setCartridge h := h
  delCartridge h := h
  party h := h
  setEngine h n := h.of_burning ((Burning.kept _ _).setEngine ⟨rfl, rfl⟩ n)
  setClimate h := h

/-- Whatever stood before, the evaluation sets the flag as the fire states have it, and what it hands on moves none (R119). -/
theorem evalFireActive (s : State) : s.evalFireActive.Told := by
  have k := keptSent.toKept
  unfold State.evalFireActive
  dsimp only
  split
  · rename_i same
    exact decide_eq_true same
  · have set : State.Told { s with fz := { s.fz with fireActive := s.fireActiveNow } } := decide_eq_true rfl
    refine iteInduction (fun _ => k.engineFire (k.engineFire ?_)) (fun _ => ?_) <;>
      exact k.settleFireHolds (iteInduction (fun _ => set) (fun _ => k.requestTx set))

theorem handOn (s : State) (z : Nat) (b : FireState) : (s.handOn z b).Told := evalFireActive _

theorem evalFault (h : s.Told) : s.evalFault.Told := h

theorem faulted (h : s.Told) {z : Nat} {b : Bool} :
    (s.setFire z { s.fire z with releaseFault := b }).Told := h.of_burning (Burning.setFire ⟨rfl, rfl⟩ _ rfl)

theorem keptBurn : KeptBurn State.Told :=
  { keptSent with
    changeFire := fun _ _ _ _ => handOn _ _ _
    setSets := fun h _ _ => h.of_burning (Burning.setFire ⟨rfl, rfl⟩ _ rfl)
    faulted := fun h => evalFault (keptSent.postReleaseFault h.faulted)
    resetFire := fun _ => handOn _ _ _ }

theorem recountHealthy (h : s.Told) {z : Nat} : (s.recountHealthy z).Told := by
  unfold State.recountHealthy
  exact iteInduction (fun _ => h) (fun _ => keptBurn.healthyCount h)

theorem changeSupervision (h : s.Told) {a : Nat} {e : NodeEntry} {w : NodeReason} : (s.changeSupervision a e w).Told := by
  unfold State.changeSupervision
  have recounted : (((s.setNode a e).post (.nodeState a e.cls e.zone e.sup w)).recountDown).Told := h
  exact iteInduction (fun _ => recountHealthy recounted) (fun _ => recounted)

theorem recountFor (h : s.Told) {e : Option NodeEntry} : (s.recountFor e).Told := by
  unfold State.recountFor
  split
  · rename_i e
    have recounted : (s.recountDetectors e.zone).Told := h
    exact iteInduction (fun _ => recountHealthy recounted) (fun _ => h)
  · exact h

theorem reloadLock (h : s.Told) {a : Nat} {old new : Option NodeEntry} : (s.reloadLock a old new).Told := by
  have k := keptSent.toKept
  unfold State.reloadLock
  split
  · exact k.settleFireHold h
  · exact k.removeLock h
  · exact k.createLock h
  · exact h

theorem applyNode (h : s.Told) {a : Nat} {n : Option NodeEntry} : (s.applyNode a n).Told := by
  unfold State.applyNode
  refine evalFault (reloadLock (recountFor (recountFor ?_)))
  split
  · exact iteInduction (fun _ => keptBurn.dropDetector h) (fun _ => h)
  · exact h

theorem applyZone (h : s.Told) {z : Nat} {n : Option ZoneEntry} : (s.applyZone z n).Told := by
  have k := keptSent.toKept
  have emptied : State.Told (if (((s.zone z).bind (·.climate)).isSome && !(n.bind (·.climate)).isSome) = true
      then s.emptyClimate z else s) := iteInduction (fun _ => k.emptyClimate h) (fun _ => h)
  unfold State.applyZone
  dsimp only
  refine iteInduction (fun _ => keptBurn.removeFireZone ?_) (fun _ => ?_) <;>
    refine evalFault (k.settleFireHolds (k.reloadPlant ?_)) <;>
    exact iteInduction (fun _ => k.setClimate emptied)
      (fun _ => iteInduction (fun _ => k.setClimate emptied) (fun _ => emptied))

theorem keptAct : KeptAct State.Told :=
  { keptBurn with
    lif := fun h _ => h
    offer := fun h _ => keptSent.offerPlace_of_place (fun h => h) h
    nodeLive := fun h _ _ _ _ => h
    changeSupervision := fun h _ _ _ => h.changeSupervision
    mark := fun h => h
    raw := fun h => h
    lineTimer := fun h _ => h
    lineSettled := fun h _ => keptBurn.conditionEdges h
    epochTimer := fun h => h
    epochs := fun h _ => h
    addOrder := fun h _ => h
    applyNode := fun h => h.applyNode
    applyZone := fun h => h.applyZone
    applySite := fun h => h
    applyLine := fun h => h
    applyParty := fun h => h
    ti := fun h _ => h
    cs := fun h => h }

theorem keptStep : KeptStep State.Told State.Told where
  act := keptAct
  free := keptAct
  drop h _ := h
  reply h := h
  hold h := h
  takeNext h := h.of_fz (State.takeNext_frame _).2.2.2.2.2.2.2.1
  ingress h _ := h
  busy h _ := h
  sendNotice {s} h := by
    unfold State.sendNotice
    split <;> exact h
  replySent h := h
  resetWith _ := rfl
  tick {s} h := by
    refine h.of_burning ⟨?_, rfl⟩
    show (s.fz.fire.map tickFire).map (·.state) = _
    rw [List.map_map]
    exact List.map_congr_left fun f _ => (tickFire_other f).1

end State.Told

/-- Settles O7: the flag is evaluated last in every change of a fire state (`State.Told.handOn`). -/
theorem fireActiveFollowsTheZones : Obligations.FireActiveFollowsTheZones := fun _ _ told stepped =>
  State.Told.keptStep.step (fun h => h) told stepped

end Sys2Proof.Machine
end

section
/-! PROOF that the node counts (R32, R34), the conditions (R50) and the fault output (R52) stand: each operation that changes a
record recounts what depends on it, and the others change none of the records counted. -/

namespace Sys2Proof.Machine

/-! ## Counting over a table -/

/-- How many entries meet a test. -/
def Table.count {α : Type} (p : α → Bool) (t : Table α) : Nat := (t.filter (fun q => p q.2)).length

theorem Table.count_cons {α : Type} (p : α → Bool) (k : Nat) (x : α) (t : Table α) :
    Table.count p ((k, x) :: t) = (if p x = true then 1 else 0) + Table.count p t := by
  simp only [Table.count, List.filter_cons]
  split
  · rw [List.length_cons, Nat.add_comm]
  · rw [Nat.zero_add]

theorem Table.get_eq_none {α : Type} {t : Table α} {k : Nat} (above : ∀ p ∈ t, k < p.1) : Table.get t k = none := by
  cases e : Table.get t k with
  | none => rfl
  | some x => exact absurd (above _ (Table.get_mem e)) (Nat.lt_irrefl k)

/-- An entry placed where the old one counted alike leaves the count. -/
theorem Table.count_put {α : Type} {p : α → Bool} {t : Table α} {k : Nat} {a : α} (w : Table.wf t = true)
    (same : meets (Table.get t k) p = p a) : Table.count p (Table.put t k a) = Table.count p t := by
  induction t with
  | nil =>
    have : p a = false := same.symm
    simp [Table.put, Table.count, this]
  | cons q t ih =>
    obtain ⟨i, x⟩ := q
    obtain ⟨above, w⟩ := Table.wf_cons.1 w
    rw [Table.put]
    split
    · rename_i before
      have absent : Table.get ((i, x) :: t) k = none := Table.get_eq_none fun q mem => by
        rcases List.mem_cons.1 mem with rfl | mem
        · exact before
        · exact before.trans (above q mem)
      rw [absent] at same
      have : p a = false := same.symm
      rw [Table.count_cons, this]
      simp
    · split
      · rename_i here
        have : p x = p a := by simpa [Table.get, here, meets] using same
        rw [Table.count_cons, Table.count_cons, this]
      · rename_i there
        have : Table.get ((i, x) :: t) k = Table.get t k := if_neg (Ne.symm there)
        rw [Table.count_cons, Table.count_cons, ih w (this ▸ same)]

/-- An entry removed that did not count leaves the count. -/
theorem Table.count_del {α : Type} {p : α → Bool} {t : Table α} {k : Nat} (w : Table.wf t = true)
    (same : meets (Table.get t k) p = false) : Table.count p (Table.del t k) = Table.count p t := by
  induction t with
  | nil => rfl
  | cons q t ih =>
    obtain ⟨i, x⟩ := q
    obtain ⟨above, w⟩ := Table.wf_cons.1 w
    rw [Table.del]
    split
    · rename_i here
      have uncounted : p x = false := by simpa [Table.get, here, meets] using same
      rw [Table.count_cons, uncounted, ih w (by rw [Table.get_eq_none (here ▸ above)]; rfl)]
      simp
    · rename_i there
      have : Table.get ((i, x) :: t) k = Table.get t k := if_neg there
      rw [Table.count_cons, Table.count_cons, ih w (this ▸ same)]

theorem Table.count_set {α : Type} {p : α → Bool} {t : Table α} {k : Nat} {n : Option α} (w : Table.wf t = true)
    (same : meets (Table.get t k) p = meets n p) : Table.count p (Table.set t k n) = Table.count p t := by
  cases n with
  | none => exact Table.count_del w same
  | some a => exact Table.count_put w same

/-- A change of every entry that no test sees leaves the counts. -/
theorem Table.count_map {α : Type} {p : α → Bool} {f : α → α} (t : Table α) (same : ∀ x, p (f x) = p x) :
    Table.count p (tableMap f t) = Table.count p t := by
  induction t with
  | nil => rfl
  | cons q t ih =>
    obtain ⟨i, x⟩ := q
    show Table.count p ((i, f x) :: tableMap f t) = _
    rw [Table.count_cons, Table.count_cons, same, ih]

/-- A detector that names the zone (R34). -/
def NodeEntry.detects (z : Nat) (e : NodeEntry) : Bool := e.cls = .detector && e.zone = z

/-- A healthy detector that names the zone (R34). -/
def NodeEntry.guards (z : Nat) (e : NodeEntry) : Bool := e.cls = .detector && e.zone = z && !e.sup.down

theorem countDetectors_eq (t : Table NodeEntry) (z : Nat) : countDetectors t z = Table.count (NodeEntry.detects z) t := rfl
theorem countHealthy_eq (t : Table NodeEntry) (z : Nat) : countHealthy t z = Table.count (NodeEntry.guards z) t := rfl

/-! ## The node counts (R32, R34) -/

/-- The detector and healthy counts stand in every zone but those of two sets. -/
structure Nt.CountedBut (d g : Nat → Prop) (n : Nt) : Prop where
  nodes     : Table.wf n.nodes = true
  detectors : n.detectorCount.length = 16
  healthy   : n.healthyCount.length = 16
  detects   : ∀ z < 16, ¬ d z → n.detectorCount.getD z 0 = countDetectors n.nodes z
  guards    : ∀ z < 16, ¬ g z → n.healthyCount.getD z 0 = countHealthy n.nodes z

/-- Every count of the node table is what its entries give. -/
structure Nt.Stands (n : Nt) : Prop where
  counted : n.CountedBut (fun _ => False) (fun _ => False)
  down    : n.faultSilent = countDown n.nodes

/-- A zone's detector count set again (R34). -/
def Nt.recountDetectors (n : Nt) (z : Nat) : Nt :=
  { n with detectorCount := n.detectorCount.set z (countDetectors n.nodes z) }

/-- A zone's healthy count set again (R34). -/
def Nt.recountHealthy (n : Nt) (z : Nat) : Nt :=
  { n with healthyCount := n.healthyCount.set z (countHealthy n.nodes z) }

/-- The counts of a detector entry's zone set again (R26). -/
def Nt.recountFor (n : Nt) : Option NodeEntry → Nt
  | some e => if e.cls = .detector then (n.recountDetectors e.zone).recountHealthy e.zone else n
  | none => n

namespace Nt.CountedBut

variable {d g : Nat → Prop} {n : Nt}

theorem weaken {d' g' : Nat → Prop} (h : n.CountedBut d g) (hd : ∀ z, d z → d' z) (hg : ∀ z, g z → g' z) :
    n.CountedBut d' g' :=
  { h with
    detects := fun z small out => h.detects z small (fun i => out (hd z i))
    guards := fun z small out => h.guards z small (fun i => out (hg z i)) }

theorem recountDetectors (h : n.CountedBut d g) (z : Nat) : (n.recountDetectors z).CountedBut (fun y => d y ∧ y ≠ z) g :=
  { h with
    detectors := (List.length_set).trans h.detectors
    detects := fun y small out => by
      show (n.detectorCount.set z _).getD y 0 = _
      by_cases e : z = y
      · subst e
        simp [List.getD, h.detectors, small, Nt.recountDetectors]
      · rw [List.getD, List.getElem?_set_ne e]
        exact h.detects y small fun i => out ⟨i, Ne.symm e⟩ }

theorem recountHealthy (h : n.CountedBut d g) (z : Nat) : (n.recountHealthy z).CountedBut d (fun y => g y ∧ y ≠ z) :=
  { h with
    healthy := (List.length_set).trans h.healthy
    guards := fun y small out => by
      show (n.healthyCount.set z _).getD y 0 = _
      by_cases e : z = y
      · subst e
        simp [List.getD, h.healthy, small, Nt.recountHealthy]
      · rw [List.getD, List.getElem?_set_ne e]
        exact h.guards y small fun i => out ⟨i, Ne.symm e⟩ }

/-- The entry's zone counted again, its counts stand. -/
theorem recountFor {p : Nat → Prop} {e : Option NodeEntry} (h : n.CountedBut p p) :
    (n.recountFor e).CountedBut (fun z => p z ∧ meets e (NodeEntry.detects z) = false)
      (fun z => p z ∧ meets e (NodeEntry.detects z) = false) := by
  cases e with
  | none => exact h.weaken (fun z hz => ⟨hz, rfl⟩) (fun z hz => ⟨hz, rfl⟩)
  | some e =>
    by_cases c : e.cls = .detector
    · have stands : ∀ z, p z ∧ z ≠ e.zone → p z ∧ meets (some e) (NodeEntry.detects z) = false := fun z hz =>
        ⟨hz.1, by simp [meets, NodeEntry.detects, Ne.symm hz.2]⟩
      rw [Nt.recountFor, if_pos c]
      exact ((h.recountDetectors e.zone).recountHealthy e.zone).weaken stands stands
    · have stands : ∀ z, p z → p z ∧ meets (some e) (NodeEntry.detects z) = false := fun z hz =>
        ⟨hz, by simp [meets, NodeEntry.detects, c]⟩
      rw [Nt.recountFor, if_neg c]
      exact h.weaken stands stands

end Nt.CountedBut

/-- Outside the zones of the old and the new entry an entry placed or removed changes no count. -/
theorem Nt.Stands.set {n : Nt} (h : n.Stands) (a : Nat) (new : Option NodeEntry) (marks : List Nat) :
    Nt.CountedBut (fun z => meets (Table.get n.nodes a) (NodeEntry.detects z) = true ∨ meets new (NodeEntry.detects z) = true)
      (fun z => meets (Table.get n.nodes a) (NodeEntry.detects z) = true ∨ meets new (NodeEntry.detects z) = true)
      { n with nodes := Table.set n.nodes a new, unknownMarks := marks } := by
  have guards : ∀ (e : Option NodeEntry) z, meets e (NodeEntry.detects z) = false → meets e (NodeEntry.guards z) = false := by
    intro e z no
    cases e with
    | none => rfl
    | some e =>
      show (NodeEntry.detects z e && !e.sup.down) = false
      rw [show NodeEntry.detects z e = false from no, Bool.false_and]
  refine { h.counted with nodes := Table.wf_set _ _ h.counted.nodes, detects := ?_, guards := ?_ }
  · intro z small out
    rw [not_or, Bool.not_eq_true, Bool.not_eq_true] at out
    rw [countDetectors_eq, Table.count_set h.counted.nodes (out.1.trans out.2.symm)]
    exact h.counted.detects z small id
  · intro z small out
    rw [not_or, Bool.not_eq_true, Bool.not_eq_true] at out
    rw [countHealthy_eq, Table.count_set h.counted.nodes ((guards _ _ out.1).trans (guards _ _ out.2).symm)]
    exact h.counted.guards z small id

/-- An entry changed in its place, class and zone kept, leaves the detector counts, and the healthy counts outside its zone. -/
theorem Nt.Stands.put {n : Nt} (h : n.Stands) {a : Nat} {e e' : NodeEntry} (node : Table.get n.nodes a = some e)
    (cls : e'.cls = e.cls) (zone : e'.zone = e.zone) :
    Nt.CountedBut (fun _ => False) (fun z => NodeEntry.detects z e' = true) { n with nodes := Table.put n.nodes a e' } := by
  have detects : ∀ z, NodeEntry.detects z e' = NodeEntry.detects z e := fun z => by simp [NodeEntry.detects, cls, zone]
  refine { h.counted with nodes := Table.wf_put _ _ h.counted.nodes, detects := ?_, guards := ?_ }
  · intro z small _
    rw [countDetectors_eq, Table.count_put h.counted.nodes (by rw [node]; exact (detects z).symm)]
    exact h.counted.detects z small id
  · intro z small out
    have off : NodeEntry.detects z e' = false := by simpa using out
    have same : NodeEntry.guards z e = NodeEntry.guards z e' := by
      show (NodeEntry.detects z e && !e.sup.down) = (NodeEntry.detects z e' && !e'.sup.down)
      rw [← detects, off, Bool.false_and, Bool.false_and]
    rw [countHealthy_eq, Table.count_put h.counted.nodes (by rw [node]; exact same)]
    exact h.counted.guards z small id

/-- Setting what a list holds already changes nothing. -/
theorem list_set_getD {l : List Nat} {z n : Nat} (same : l.getD z 0 = n) : l.set z n = l := by
  refine List.ext_getElem? fun i => ?_
  rw [List.getElem?_set]
  split
  · rename_i e
    subst e
    split
    · rename_i small
      rw [← same, List.getD, List.getElem?_eq_getElem small]
      rfl
    · rename_i large
      rw [List.getElem?_eq_none (by omega)]
  · rfl

/-! ## What a fire's course leaves of the lines (R50, R52) -/

/-- The line entries and the conditions are those given, and the fault output meets a test. -/
def State.Wired (l : Table LineEntry) (c : List Conditions) (p : Bool → Prop) (s : State) : Prop :=
  s.lu.lines = l ∧ s.lu.conditions = c ∧ p s.lu.fault

namespace State.Wired

variable {l : Table LineEntry} {c : List Conditions} {p : Bool → Prop} {s : State}

theorem keptSent (l : Table LineEntry) (c : List Conditions) (p : Bool → Prop) : KeptSent (State.Wired l c p) where
  post h := h
  passDownOutcome {s o} h := by simpa [State.Wired] using h
  setLock h := h
  delLock h := h
  setActuator h := h
  delActuator h := h
  setOrder h := h
  delOrder h := h
  place h _ := h
  swap h _ := h
  mapOrigins h := h
  flags h _ := h
  cleared h := h
  alert h := h
  setCartridge h := h
  delCartridge h := h
  party h := h
  setEngine {s e x} h _ := by cases e <;> exact h
  setClimate h := h

theorem of_lu {t : State} (h : s.Wired l c p) (same : t.lu = s.lu) : t.Wired l c p := by
  rwa [State.Wired, same]

theorem driveRelease (h : s.Wired l c p) (z : Nat) (on : Bool) : (s.driveRelease z on).Wired l c p := by
  unfold State.driveRelease
  split <;> exact h

theorem handOn (h : s.Wired l c p) {z : Nat} {b : FireState} : (s.handOn z b).Wired l c p :=
  (keptSent l c p).handOnAfterDrive (fun h => h) (iteInduction (fun _ => h.driveRelease z true)
    (fun _ => iteInduction (fun _ => h.driveRelease z false) (fun _ => h)))

theorem keptBurn (l : Table LineEntry) (c : List Conditions) : KeptBurn (State.Wired l c (fun _ => True)) :=
  { keptSent l c _ with
    changeFire := fun h _ _ _ => handOn (h.of_lu (by simp))
    setSets := fun h _ _ => h.of_lu rfl
    faulted := fun h => h
    resetFire := fun {s z} h => by
      unfold State.resetFire
      apply handOn
      split
      · exact h
      · exact h.of_lu (by simp) }

end State.Wired

/-! ## The conditions of the zones (R50) -/

/-- The conditions of every zone are as its lines have them. -/
structure State.Wires (s : State) : Prop where
  lines  : Table.wf s.lu.lines = true
  size   : s.lu.conditions.length = 16
  stands : ∀ z < 16, s.conditions z = s.computeConditions z

theorem State.computeConditions_congr {s t : State} (lines : t.lu.lines = s.lu.lines) (zones : t.zt.zones = s.zt.zones)
    (z : Nat) : t.computeConditions z = s.computeConditions z := by
  unfold State.computeConditions State.anyLine State.dischargeCondition State.zone
  rw [lines, zones]

namespace State.Wires

variable {s t : State}

theorem congr (h : s.Wires) (lines : t.lu.lines = s.lu.lines) (conditions : t.lu.conditions = s.lu.conditions)
    (zones : t.zt.zones = s.zt.zones) : t.Wires where
  lines := lines ▸ h.lines
  size := conditions ▸ h.size
  stands z small := by
    rw [State.computeConditions_congr lines zones, ← h.stands z small]
    unfold State.conditions
    rw [conditions]

/-- Whatever the conditions were, a load computes them all (R48). -/
theorem reload (lines : Table.wf s.lu.lines = true) : s.reloadConditions.Wires where
  lines := lines
  size := by simp [State.reloadConditions, zoneNumbers]
  stands z small := by
    simp [State.reloadConditions, State.conditions, zoneNumbers, small]
    rfl

theorem recountHealthy (h : s.Wires) (z : Nat) : (s.recountHealthy z).Wires := by
  have wired : (s.recountHealthy z).Wired s.lu.lines s.lu.conditions (fun _ => True) := by
    have start : s.Wired s.lu.lines s.lu.conditions (fun _ => True) := ⟨rfl, rfl, trivial⟩
    unfold State.recountHealthy
    exact iteInduction (fun _ => start) (fun _ => (State.Wired.keptBurn _ _).healthyCount start)
  exact h.congr wired.1 wired.2.1 (by simp)

theorem recountFor (h : s.Wires) (e : Option NodeEntry) : (s.recountFor e).Wires := by
  unfold State.recountFor
  split
  · rename_i e
    have recounted : (s.recountDetectors e.zone).Wires := h.congr rfl rfl rfl
    exact iteInduction (fun _ => recountHealthy recounted _) (fun _ => h)
  · exact h

end State.Wires

theorem State.reloadLock_frame (s : State) (a : Nat) (old new : Option NodeEntry) :
    (s.reloadLock a old new).nt = s.nt ∧ (s.reloadLock a old new).zt = s.zt ∧ (s.reloadLock a old new).lu = s.lu := by
  unfold State.reloadLock
  split <;> simp

theorem State.recountHealthy_nt (s : State) (z : Nat) : (s.recountHealthy z).nt = s.nt.recountHealthy z := by
  unfold State.recountHealthy
  dsimp only
  split
  · rename_i same
    rw [Nt.recountHealthy, list_set_getD same]
  · simp only [State.healthyCount_frame]
    rfl

theorem State.recountFor_nt (s : State) (e : Option NodeEntry) : (s.recountFor e).nt = s.nt.recountFor e := by
  cases e with
  | none => rfl
  | some e =>
    simp only [State.recountFor, Nt.recountFor]
    split
    · exact State.recountHealthy_nt _ _
    · rfl

/-! ## The invariant -/

/-- The node counts, the conditions and the fault output stand. -/
structure State.Computed (s : State) : Prop where
  nodes : s.nt.Stands
  wires : s.Wires
  fault : s.lu.fault = s.faultCondition

theorem State.faultCondition_congr {s t : State} (zt : t.zt = s.zt) (nt : t.nt = s.nt)
    (fire : ∀ z, (t.fire z).releaseFault = (s.fire z).releaseFault) : t.faultCondition = s.faultCondition := by
  unfold State.faultCondition State.inTrouble State.healthy
  simp only [zt, nt, fire]

theorem State.fire_setFire_releaseFault (s : State) (z : Nat) {f : Fire}
    (same : f.releaseFault = (s.fire z).releaseFault) (y : Nat) :
    ((s.setFire z f).fire y).releaseFault = (s.fire y).releaseFault := by
  rw [State.fire_setFire]
  split
  · rename_i e
    rw [same, e.1]
  · rfl

namespace State.Computed

variable {s t : State}

theorem congr (h : s.Computed) (nt : t.nt = s.nt) (zt : t.zt = s.zt)
    (wired : t.Wired s.lu.lines s.lu.conditions (s.lu.fault = ·))
    (fire : ∀ z, (t.fire z).releaseFault = (s.fire z).releaseFault) : t.Computed where
  nodes := nt ▸ h.nodes
  wires := h.wires.congr wired.1 wired.2.1 (by rw [zt])
  fault := wired.2.2.symm.trans (h.fault.trans (State.faultCondition_congr zt nt fire).symm)

/-- The evaluation sets the fault output (R52). -/
theorem evalFault (nodes : s.nt.Stands) (wires : s.Wires) : s.evalFault.Computed :=
  ⟨nodes, wires.congr rfl rfl rfl, rfl⟩

theorem setFire (h : s.Computed) (z : Nat) {f : Fire} (same : f.releaseFault = (s.fire z).releaseFault) :
    (s.setFire z f).Computed :=
  h.congr rfl rfl ⟨rfl, rfl, rfl⟩ (s.fire_setFire_releaseFault z same)

/-- No operation short of a change of fire state touches a record that is counted, but the flags of a release. -/
theorem keptSent : KeptSent State.Computed where
  post h := h.congr rfl rfl ⟨rfl, rfl, rfl⟩ fun _ => rfl
  passDownOutcome {s o} h := by
    refine h.congr (by simp) (by simp) ((Wired.keptSent _ _ _).passDownOutcome ⟨rfl, rfl, rfl⟩) fun z => ?_
    rw [State.fire_congr (s := s) (t := s.passDownOutcome o) (by simp)]
  setLock h := h.congr rfl rfl ⟨rfl, rfl, rfl⟩ fun _ => rfl
  delLock h := h.congr rfl rfl ⟨rfl, rfl, rfl⟩ fun _ => rfl
  setActuator h := h.congr rfl rfl ⟨rfl, rfl, rfl⟩ fun _ => rfl
  delActuator h := h.congr rfl rfl ⟨rfl, rfl, rfl⟩ fun _ => rfl
  setOrder h := h.congr rfl rfl ⟨rfl, rfl, rfl⟩ fun _ => rfl
  delOrder h := h.congr rfl rfl ⟨rfl, rfl, rfl⟩ fun _ => rfl
  place h _ := h.congr rfl rfl ⟨rfl, rfl, rfl⟩ fun _ => rfl
  swap h _ := h.congr rfl rfl ⟨rfl, rfl, rfl⟩ fun _ => rfl
  mapOrigins h := h.congr rfl rfl ⟨rfl, rfl, rfl⟩ fun _ => rfl
  flags h _ := h.setFire _ rfl
  cleared h := h.setFire _ rfl
  alert h := h.congr rfl rfl ⟨rfl, rfl, rfl⟩ fun _ => rfl
  setCartridge h := h.congr rfl rfl ⟨rfl, rfl, rfl⟩ fun _ => rfl
  delCartridge h := h.congr rfl rfl ⟨rfl, rfl, rfl⟩ fun _ => rfl
  party h := h.congr rfl rfl ⟨rfl, rfl, rfl⟩ fun _ => rfl
  setEngine {s e x} h _ := by
    cases e <;> exact h.congr rfl rfl ⟨rfl, rfl, rfl⟩ fun _ => rfl
  setClimate h := h.congr rfl rfl ⟨rfl, rfl, rfl⟩ fun _ => rfl

theorem handOn (h : s.Computed) {z : Nat} {b : FireState} : (s.handOn z b).Computed :=
  keptSent.handOnAfterDrive (fun h => h.congr rfl rfl ⟨rfl, rfl, rfl⟩ fun _ => rfl)
    (by
      have drive : ∀ on, (s.driveRelease z on).Computed := fun on =>
        h.congr (by simp) (by simp) (Wired.driveRelease (s := s) ⟨rfl, rfl, rfl⟩ z on) fun y => by
          rw [State.fire_congr (s := s) (t := s.driveRelease z on) (by simp)]
      exact iteInduction (fun _ => drive true) (fun _ => iteInduction (fun _ => drive false) (fun _ => h)))

theorem resetFire (h : s.Computed) (z : Nat) : (s.resetFire z).Computed := by
  unfold State.resetFire
  apply handOn
  split
  · exact evalFault h.nodes (h.wires.congr rfl rfl rfl)
  · rename_i clear
    exact keptSent.postFireState (keptSent.killRelease (h.setFire z (by simpa using Ne.symm clear)))

theorem keptBurn : KeptBurn State.Computed :=
  { keptSent with
    changeFire := fun h same _ _ => handOn (keptSent.postFireState (h.setFire _ same))
    setSets := fun h _ _ => h.setFire _ rfl
    faulted := fun h => evalFault h.nodes (h.wires.congr rfl rfl rfl)
    resetFire := fun h => h.resetFire _ }

/-! ### Nodes -/

/-- The healthy count of the one zone where it may not stand set again, and handed on (R34, R100). -/
theorem recountHealthy {z : Nat} (nodes : s.nt.CountedBut (fun _ => False) (· = z)) (down : s.nt.faultSilent = countDown s.nt.nodes)
    (wires : s.Wires) (fault : s.lu.fault = s.faultCondition) : (s.recountHealthy z).Computed := by
  have counted := (nodes.recountHealthy z).weaken (fun _ no => no) (g' := fun _ => False) (fun y hy => hy.2 hy.1)
  unfold State.recountHealthy
  dsimp only
  split
  · rename_i same
    rw [Nt.recountHealthy, list_set_getD same] at counted
    exact ⟨⟨counted, down⟩, wires, fault⟩
  · exact keptBurn.healthyCount (evalFault ⟨counted, down⟩ (wires.congr rfl rfl rfl))

theorem changeSupervision (h : s.Computed) {a : Nat} {e e' : NodeEntry} {w : NodeReason} (node : s.node a = some e)
    (cls : e'.cls = e.cls) (zone : e'.zone = e.zone) : (s.changeSupervision a e' w).Computed := by
  have put := h.nodes.put node cls zone
  have wires : (((s.setNode a e').post (.nodeState a e'.cls e'.zone e'.sup w)).recountDown).Wires :=
    h.wires.congr rfl rfl rfl
  unfold State.changeSupervision
  dsimp only
  split
  · exact recountHealthy { put with
      detects := put.detects
      guards := fun z small out => put.guards z small fun d => out (by simp_all [NodeEntry.detects]) } rfl wires rfl
  · rename_i other
    exact ⟨⟨{ put with
      detects := put.detects
      guards := fun z small _ => put.guards z small fun d => other (by simp_all [NodeEntry.detects]) }, rfl⟩, wires, rfl⟩

/-- The entry's live fields: no count looks at them. -/
theorem nodeLive (h : s.Computed) {a : Nat} {e e' : NodeEntry} (node : s.node a = some e)
    (cls : e'.cls = e.cls) (zone : e'.zone = e.zone) (sup : e'.sup = e.sup) : (s.setNode a e').Computed := by
  have same : ∀ p : NodeEntry → Bool, p e' = p e → meets (Table.get s.nt.nodes a) p = p e' := fun p same => by
    rw [show Table.get s.nt.nodes a = some e from node]
    exact same.symm
  have counted := h.nodes.counted
  have detects : ∀ z, countDetectors (Table.put s.nt.nodes a e') z = countDetectors s.nt.nodes z := fun z =>
    Table.count_put counted.nodes (same (NodeEntry.detects z) (by simp [NodeEntry.detects, cls, zone]))
  have guards : ∀ z, countHealthy (Table.put s.nt.nodes a e') z = countHealthy s.nt.nodes z := fun z =>
    Table.count_put counted.nodes (same (NodeEntry.guards z) (by simp [NodeEntry.guards, cls, zone, sup]))
  have down : countDown (Table.put s.nt.nodes a e') = countDown s.nt.nodes :=
    Table.count_put counted.nodes (same (fun e => e.sup.down) (by simp [sup]))
  exact ⟨⟨{ counted with
    nodes := Table.wf_put _ _ counted.nodes
    detects := fun z small out => (counted.detects z small out).trans (detects z).symm
    guards := fun z small out => (counted.guards z small out).trans (guards z).symm }, h.nodes.down.trans down.symm⟩,
    h.wires.congr rfl rfl rfl, h.fault⟩

theorem applyNode (h : s.Computed) (a : Nat) (new : Option NodeEntry) : (s.applyNode a new).Computed := by
  unfold State.applyNode
  dsimp only
  generalize (if ((s.node a).isSome && new.isNone) = true then setErase s.nt.unknownMarks a else s.nt.unknownMarks) = marks
  have placed : ∀ {u : State}, u.nt = { s.nt with nodes := Table.set s.nt.nodes a new, unknownMarks := marks } → u.Wires →
      ((((u.recountFor (s.node a)).recountFor new).reloadLock a (s.node a) new).recountDown).Computed := by
    intro u nt wires
    have recounted := (h.nodes.set a new marks).recountFor (e := s.node a) |>.recountFor (e := new)
    have counted := recounted.weaken (d' := fun _ => False) (g' := fun _ => False)
      (fun z hz => by
        rcases hz.1.1 with some | some
        · exact absurd (some.symm.trans hz.1.2) (by simp)
        · exact absurd (some.symm.trans hz.2) (by simp))
      (fun z hz => by
        rcases hz.1.1 with some | some
        · exact absurd (some.symm.trans hz.1.2) (by simp)
        · exact absurd (some.symm.trans hz.2) (by simp))
    obtain ⟨ntLock, ztLock, luLock⟩ :=
      ((u.recountFor (s.node a)).recountFor new).reloadLock_frame a (s.node a) new
    rw [← nt, ← State.recountFor_nt, ← State.recountFor_nt, ← ntLock] at counted
    have relocked : (((u.recountFor (s.node a)).recountFor new).reloadLock a (s.node a) new).Wires :=
      ((wires.recountFor _).recountFor _).congr (by rw [luLock]) (by rw [luLock]) (by rw [ztLock])
    exact evalFault ⟨{ counted with }, rfl⟩ (relocked.congr rfl rfl rfl)
  split
  · split
    · exact placed (by simp) (h.wires.congr rfl rfl rfl)
    · exact placed rfl (h.wires.congr rfl rfl rfl)
  · exact placed rfl (h.wires.congr rfl rfl rfl)

/-! ### Zones and lines -/

theorem applyZone (h : s.Computed) (z : Nat) (new : Option ZoneEntry) : (s.applyZone z new).Computed := by
  unfold State.applyZone
  dsimp only
  have emptied : State.Computed (if (((s.zone z).bind (·.climate)).isSome && !(new.bind (·.climate)).isSome) = true
      then s.emptyClimate z else s) := iteInduction (fun _ => keptSent.emptyClimate h) (fun _ => h)
  generalize (if (((s.zone z).bind (·.climate)).isSome && !(new.bind (·.climate)).isSome) = true
      then s.emptyClimate z else s) = s1 at emptied ⊢
  have reloaded : ∀ {u : State} {g as}, u.nt = s1.nt → u.lu = s1.lu →
      (State.evalFault (((u.reloadPlant z g).settleFireHolds as).reloadConditions)).Computed := by
    intro u g as nt lu
    exact evalFault (by simpa [nt] using emptied.nodes) (Wires.reload (by simpa [lu] using emptied.wires.lines))
  refine iteInduction (fun _ => keptBurn.removeFireZone ?_) (fun _ => ?_) <;> refine reloaded ?_ ?_ <;>
    exact iteInduction (motive := fun u : State => _ = _) (fun _ => rfl)
      (fun _ => iteInduction (motive := fun u : State => _ = _) (fun _ => rfl) (fun _ => rfl))

end State.Computed

/-- A line entry changed in its place, no test of the conditions seeing it, leaves what some line meets. -/
theorem Table.any_put {α : Type} {p : α → Bool} {t : Table α} {k : Nat} {a x : α} (w : Table.wf t = true)
    (there : Table.get t k = some x) (same : p a = p x) : (Table.put t k a).any (fun q => p q.2) = t.any (fun q => p q.2) := by
  have count (u : Table α) : u.any (fun q => p q.2) = decide (0 < Table.count p u) := by
    rw [Bool.eq_iff_iff, decide_eq_true_iff, Table.count, List.length_pos_iff, ne_eq, List.filter_eq_nil_iff]
    simp
  rw [count, count, Table.count_put w (by rw [there]; exact same.symm)]

/-- An active line of a function that names the zone (R50). -/
def LineEntry.asserts (f : LineFunction) (z : Nat) (l : LineEntry) : Bool := l.function = f && l.zone = z && l.isActive

theorem State.anyLine_eq (s : State) (f : LineFunction) (z : Nat) :
    s.anyLine f z = s.lu.lines.any (fun q => LineEntry.asserts f z q.2) := rfl

/-- A line entry changed in its place, its function and zone kept: the conditions of a zone stand where it names another, or
where it is as active as before. -/
theorem State.computeConditions_putLine {s : State} (w : Table.wf s.lu.lines = true) {n : Nat} {l l' : LineEntry}
    (line : Table.get s.lu.lines n = some l) (function : l'.function = l.function) (zone : l'.zone = l.zone) {z : Nat}
    (same : z ≠ l.zone ∨ l'.isActive = l.isActive) :
    ({ s with lu := { s.lu with lines := Table.put s.lu.lines n l' } } : State).computeConditions z
      = s.computeConditions z := by
  have active : ∀ f : LineFunction, l'.asserts f z = l.asserts f z := by
    intro f
    unfold LineEntry.asserts
    rw [function, zone]
    rcases same with other | same
    · simp [Ne.symm other]
    · rw [same]
  have any : ∀ f, ({ s with lu := { s.lu with lines := Table.put s.lu.lines n l' } } : State).anyLine f z = s.anyLine f z :=
    fun f => Table.any_put w line (active f)
  have discharge : ({ s with lu := { s.lu with lines := Table.put s.lu.lines n l' } } : State).dischargeCondition z
      = s.dischargeCondition z := by
    unfold State.dischargeCondition
    show (match (s.zone z).bind (·.fire.checkLine) with | none => _ | some m => _) = _
    cases (s.zone z).bind (·.fire.checkLine) with
    | none => rfl
    | some m =>
      by_cases e : m = n
      · subst e
        simpa [line, LineEntry.asserts] using active .dischargeOk
      · simp [Table.get_put_other _ _ e]
  simp only [State.computeConditions, any, discharge]

namespace State.Computed

variable {s : State}

theorem lineTimer (h : s.Computed) {n : Nat} {l : LineEntry} {t : Timer} (line : Table.get s.lu.lines n = some l) :
    State.Computed { s with lu := { s.lu with lines := Table.put s.lu.lines n { l with timer := t } } } where
  nodes := h.nodes
  wires := {
    lines := Table.wf_put _ _ h.wires.lines
    size := h.wires.size
    stands := fun z small => (h.wires.stands z small).trans
      (State.computeConditions_putLine (l' := { l with timer := t }) h.wires.lines line rfl rfl (.inr rfl)).symm }
  fault := h.fault

/-- The edge computes the conditions of the line's zone, and the line meets no other (R50). -/
theorem lineSettled (h : s.Computed) {n : Nat} {l : LineEntry} {v : Level} (line : Table.get s.lu.lines n = some l) :
    (State.settledEdge { s with lu := { s.lu with
      lines := Table.put s.lu.lines n { l with settled := v, timer := none } } } l.zone).Computed := by
  refine keptBurn.conditionEdges ⟨h.nodes, ⟨Table.wf_put _ _ h.wires.lines, (List.length_set).trans h.wires.size, ?_⟩, h.fault⟩
  intro z small
  let u : State := { s with lu := { s.lu with lines := Table.put s.lu.lines n { l with settled := v, timer := none } } }
  show (s.lu.conditions.set l.zone (u.computeConditions l.zone)).getD z _ = u.computeConditions z
  by_cases e : l.zone = z
  · subst e
    simp [List.getD, h.wires.size, small]
  · rw [List.getD, List.getElem?_set_ne e]
    exact (h.wires.stands z small).trans (State.computeConditions_putLine
      (l' := { l with settled := v, timer := none }) h.wires.lines line rfl rfl (.inl (Ne.symm e))).symm

theorem keptAct : KeptAct State.Computed :=
  { keptBurn with
    lif := fun h _ => h.congr rfl rfl ⟨rfl, rfl, rfl⟩ fun _ => rfl
    offer := fun h _ => keptSent.offerPlace_of_place (fun h => h.congr rfl rfl ⟨rfl, rfl, rfl⟩ fun _ => rfl)
      (h.congr rfl rfl ⟨rfl, rfl, rfl⟩ fun _ => rfl)
    nodeLive := fun h node cls zone sup => h.nodeLive node cls zone sup
    changeSupervision := fun h node cls zone => h.changeSupervision node cls zone
    mark := fun h => ⟨⟨{ h.nodes.counted with }, h.nodes.down⟩, h.wires.congr rfl rfl rfl, h.fault⟩
    raw := fun h => ⟨h.nodes, h.wires.congr rfl rfl rfl, h.fault⟩
    lineTimer := fun h line => h.lineTimer line
    lineSettled := fun h line => h.lineSettled line
    epochTimer := fun h => h.congr rfl rfl ⟨rfl, rfl, rfl⟩ fun _ => rfl
    epochs := fun h _ => h.congr rfl rfl ⟨rfl, rfl, rfl⟩ fun _ => rfl
    addOrder := fun h _ => h.congr rfl rfl ⟨rfl, rfl, rfl⟩ fun _ => rfl
    applyNode := fun h => h.applyNode _ _
    applyZone := fun h => h.applyZone _ _
    applySite := fun h => evalFault h.nodes (h.wires.congr rfl rfl rfl)
    applyLine := fun h => ⟨h.nodes, Wires.reload (Table.wf_set _ _ h.wires.lines), h.fault⟩
    applyParty := fun h => h.congr rfl rfl ⟨rfl, rfl, rfl⟩ fun _ => rfl
    ti := fun h _ => h.congr rfl rfl ⟨rfl, rfl, rfl⟩ fun _ => rfl
    cs := fun h => h.congr rfl rfl ⟨rfl, rfl, rfl⟩ fun _ => rfl }

/-- A tick moves timers and counts, which no count and no condition looks at. -/
theorem tick (h : s.Computed) : (tick s).Computed := by
  have nodes : ∀ p : NodeEntry → Bool, (∀ e t, p { e with timer := t } = p e) →
      Table.count p (Machine.tick s).nt.nodes = Table.count p s.nt.nodes := fun p blind => by
    rw [tick_nodes]
    exact Table.count_map _ fun e => blind e _
  have zones (z : Nat) : (Machine.tick s).computeConditions z = s.computeConditions z := by
    have any : ∀ f, (Machine.tick s).anyLine f z = s.anyLine f z := fun f => by
      unfold State.anyLine
      rw [tick_lines, tableMap, List.any_map]
      rfl
    have discharge : (Machine.tick s).dischargeCondition z = s.dischargeCondition z := by
      unfold State.dischargeCondition
      rw [tick_lines]
      show (match (s.zone z).bind (·.fire.checkLine) with | none => _ | some m => _) = _
      cases (s.zone z).bind (·.fire.checkLine) with
      | none => rfl
      | some m =>
        simp only [tableMap_get]
        cases Table.get s.lu.lines m <;> rfl
    simp only [State.computeConditions, any, discharge]
  have fire (z : Nat) : ((Machine.tick s).fire z).releaseFault = (s.fire z).releaseFault := by
    show ((s.fz.fire.map tickFire).getD z Fire.initial).releaseFault = (s.fz.fire.getD z Fire.initial).releaseFault
    rw [List.getD, List.getD, List.getElem?_map]
    cases s.fz.fire[z]? with
    | none => rfl
    | some f => exact (tickFire_other f).2.2.2
  have counted := h.nodes.counted
  refine ⟨⟨{ counted with nodes := ?_, detects := ?_, guards := ?_ }, ?_⟩, ⟨?_, h.wires.size, ?_⟩, ?_⟩
  · exact tick_nodes s ▸ tableMap_wf _ counted.nodes
  · exact fun z small out => (counted.detects z small out).trans (nodes (NodeEntry.detects z) fun _ _ => rfl).symm
  · exact fun z small out => (counted.guards z small out).trans (nodes (NodeEntry.guards z) fun _ _ => rfl).symm
  · exact h.nodes.down.trans (nodes (fun e => e.sup.down) fun _ _ => rfl).symm
  · exact tick_lines s ▸ tableMap_wf _ h.wires.lines
  · exact fun z small => (h.wires.stands z small).trans (zones z).symm
  · refine h.fault.trans ?_
    simp only [State.faultCondition, fire]
    rfl

theorem computed_iff (s : State) (form : s.wellFormed = true) : s.computedStands = true ↔ s.Computed := by
  simp only [State.wellFormed, State.tablesWf, State.shaped, Bool.and_eq_true, decide_eq_true_eq] at form
  obtain ⟨⟨⟨tables, shape⟩, -⟩, -⟩ := form
  simp only [State.computedStands, Bool.and_eq_true, decide_eq_true_eq, List.all_eq_true, zoneNumbers, List.mem_range]
  constructor
  · rintro ⟨⟨down, zones⟩, fault⟩
    exact ⟨⟨⟨by tauto, by tauto, by tauto, fun z small _ => (zones z small).1.1, fun z small _ => (zones z small).1.2⟩, down⟩,
      ⟨by tauto, by tauto, fun z small => (zones z small).2⟩, fault⟩
  · rintro ⟨⟨counted, down⟩, wires, fault⟩
    exact ⟨⟨down, fun z small => ⟨⟨counted.detects z small id, counted.guards z small id⟩, wires.stands z small⟩⟩, fault⟩

theorem reset : State.reset.Computed := (computed_iff _ (by decide)).1 (by decide)

theorem keptStep : KeptStep State.Computed State.Computed where
  act := keptAct
  free := keptAct
  drop h _ := h.congr rfl rfl ⟨rfl, rfl, rfl⟩ fun _ => rfl
  reply h := h.congr rfl rfl ⟨rfl, rfl, rfl⟩ fun _ => rfl
  hold h := h.congr rfl rfl ⟨rfl, rfl, rfl⟩ fun _ => rfl
  takeNext {s} h := h.congr (by simp) (by simp) (Wired.of_lu ⟨rfl, rfl, rfl⟩ (by simp)) fun z => by
    rw [State.fire_congr (s := s) (t := s.takeNext) (by simp)]
  ingress h _ := h.congr rfl rfl ⟨rfl, rfl, rfl⟩ fun _ => rfl
  busy h _ := h.congr rfl rfl ⟨rfl, rfl, rfl⟩ fun _ => rfl
  sendNotice {s} h := by
    unfold State.sendNotice
    split
    · exact h
    · exact h.congr rfl rfl ⟨rfl, rfl, rfl⟩ fun _ => rfl
  replySent h := h.congr rfl rfl ⟨rfl, rfl, rfl⟩ fun _ => rfl
  resetWith _ := ⟨reset.nodes, reset.wires.congr rfl rfl rfl, rfl⟩
  tick := tick

end State.Computed

/-- Settles O8: each operation that changes a record sets what is computed from it (`State.Computed`). -/
theorem countsConditionsAndFaultOutputStand : Obligations.CountsConditionsAndFaultOutputStand := by
  intro s t form stands stepped
  have computed := State.Computed.keptStep.step (fun h => h.congr rfl rfl ⟨rfl, rfl, rfl⟩ fun _ => rfl)
    ((State.Computed.computed_iff s form).1 stands) stepped
  obtain ⟨⟨counted, down⟩, wires, fault⟩ := computed
  simp only [State.computedStands, Bool.and_eq_true, decide_eq_true_eq, List.all_eq_true, zoneNumbers, List.mem_range]
  exact ⟨⟨down, fun z small => ⟨⟨counted.detects z small id, counted.guards z small id⟩, wires.stands z small⟩⟩, fault⟩

end Sys2Proof.Machine
end

section
/-! PROOFS of the machine's own statements: a step, a tick on an empty queue (log 2), and the state a reset leaves (R202). -/

namespace Sys2Proof.Machine

/-- Settles O1: the front of the queue decides the step. -/
theorem stepRunsTheFrontCommand : Obligations.StepRunsTheFrontCommand := by
  intro c rest s front
  unfold step
  rw [front]

/-- Settles O3: each value is that of `State.reset`, zone by zone where the rules name zones. -/
theorem resetHoldsTheStatedValues : Obligations.ResetHoldsTheStatedValues := by
  have uniform {α : Type} (n z : Nat) (a : α) : (List.replicate n a).getD z a = a := by
    rw [List.getD, List.getElem?_replicate]
    split <;> rfl
  refine ⟨rfl, rfl, rfl, rfl, rfl, rfl, rfl, rfl, rfl, fun z => uniform 16 z 0, fun z => uniform 16 z 0, rfl, rfl, rfl,
    fun z => uniform 16 z _, ?_, rfl, fun z => uniform 16 z _, rfl, rfl, rfl, fun z => uniform 16 z _, rfl, rfl, rfl, rfl,
    rfl, rfl, rfl, ?_, rfl, rfl, rfl, rfl, rfl, rfl, rfl, rfl, rfl, rfl, rfl, rfl, _, rfl⟩
  · decide
  · intro h
    cases h <;> rfl

/-- Settles O6: the reset state is closed, so each check is evaluated. -/
theorem resetHasTheInvariants : Obligations.ResetHasTheInvariants := by
  refine ⟨?_, ?_, ?_, ?_⟩ <;> decide

/-! ## Resets (R191, R202) -/

theorem Cs.restarted_of_idle {c : Cs} (h : c.writing = none) : c.restarted = c := by
  unfold Cs.restarted
  rw [h]

theorem Cs.restarted_of_writing {c : Cs} {n : List Byte} (h : c.writing = some n) :
    c.restarted.checkOk = false ∧ c.restarted.writing = none := by
  unfold Cs.restarted
  rw [h]
  exact ⟨rfl, rfl⟩

/-- Settles O4: the three rows share `State.resetWith` and differ in the causes. -/
theorem resetsActAlikeOnEveryBlock : Obligations.ResetsActAlikeOnEveryBlock := by
  intro s after
  have reset (causes : ResetCauses) : after causes (s.resetWith causes) :=
    ⟨rfl, Cs.restarted_of_idle, fun _ => Cs.restarted_of_writing⟩
  exact ⟨⟨_, rfl, reset _⟩, ⟨_, rfl, reset _⟩, ⟨_, rfl, reset _⟩⟩

/-! ## A tick -/

theorem tickLif_loop (l : Lif) : (tickLif l).loop = (if l.loop = .answering then .quiet else l.loop)
    ∧ (tickLif l).tail = l.tail := by
  show l.slotOver.loop = _ ∧ l.slotOver.tail = _
  unfold Lif.slotOver
  split <;> exact ⟨rfl, rfl⟩

/-- An item a tick later, in its place. -/
theorem tickLif_item {l : Lif} {i : Nat} {it : TxItem} (item : l.txq[i]? = some it) : ∃ u, (tickLif l).txq[i]? = some u
    ∧ (∀ n, it.state = .waiting n → u = { it with state := .waiting (n - 1) })
    ∧ (it.state = .ready ∨ it.state = .onLoop → u = it) := by
  unfold tickLif
  simp only [l.slotOver_other.1, List.getElem?_map, item, Option.map_some]
  refine ⟨_, rfl, ?_, ?_⟩
  · intro n waiting
    simp only [waiting]
  · rintro (ready | onLoop)
    · simp only [ready]
    · simp only [onLoop]

theorem tick_climate (s : State) (z : Nat) :
    (tick s).climate z = { s.climate z with stale := (s.climate z).stale.map (· - 1) } := by
  show (s.cu.climate.map _).getD z Climate.empty = _
  unfold State.climate
  rw [List.getD, List.getD, List.getElem?_map]
  cases s.cu.climate[z]? <;> rfl

section

variable {f : Fire} {r : Nat}

theorem tickFire_still (h : f.state ≠ .countdown ∨ f.remaining = some 0) : tickFire f = f := by
  unfold tickFire
  split
  · rename_i counting remaining
    have : f.remaining = some 0 := h.resolve_left (not_not_intro counting)
    rw [if_pos (Option.some.inj (remaining.symm.trans this))]
  · rfl

theorem tickFire_phase (counting : f.state = .countdown) (phase : f.phase < 9) (left : f.remaining = some (r + 1)) :
    tickFire f = { f with phase := f.phase + 1 } := by
  unfold tickFire
  simp only [counting, left]
  rw [if_neg (Nat.succ_ne_zero r), if_pos (by omega)]

theorem tickFire_tenth (counting : f.state = .countdown) (phase : f.phase = 9) (left : f.remaining = some (r + 1)) :
    tickFire f = { f with phase := 0, remaining := some r } := by
  unfold tickFire
  simp only [counting, left]
  rw [if_neg (Nat.succ_ne_zero r), if_neg (by omega)]
  rfl

end

theorem tick_fire {s : State} {z : Nat} {f : Fire} (h : s.fz.fire[z]? = some f) :
    (tick s).fz.fire[z]? = some (tickFire f) := by
  show (s.fz.fire.map tickFire)[z]? = _
  rw [List.getElem?_map, h]
  rfl

/-- Settles O2: what a tick makes of each block, timer by timer. -/
theorem emptyQueueLetsATickPass : Obligations.EmptyQueueLetsATickPass := by
  intro s empty
  obtain ⟨loop, tail⟩ := tickLif_loop s.lif
  have stepped : step s = .next (tick s) := by
    unfold step
    rw [empty]
  refine ⟨tick s, stepped, empty, rfl, loop, tail, ?_, ?_, tick_climate s, rfl, rfl, ?_, ?_, ?_, ?_, ?_, ?_, ?_, ?_, ?_, ?_⟩
  · intro a
    exact (congrArg (Table.get · a) (tick_nodes s)).trans (tableMap_get _ _ _)
  · intro n
    exact (congrArg (Table.get · n) (tick_lines s)).trans (tableMap_get _ _ _)
  · intro z r
    exact tableMap_get _ _ _
  · intro a
    exact tableMap_get _ _ _
  · intro h
    cases h <;> rfl
  · exact fun i it item => tickLif_item item
  · exact fun z f fire still => (tick_fire fire).trans (congrArg some (tickFire_still still))
  · exact fun z f r fire counting phase left => (tick_fire fire).trans (congrArg some (tickFire_phase counting phase left))
  · exact fun z f r fire counting phase left => (tick_fire fire).trans (congrArg some (tickFire_tenth counting phase left))
  · intro running
    have ticked : (tick s).ti = { s.ti with clockTicks := s.ti.clockTicks + 1 } := if_pos (by omega)
    rw [ticked]
    exact ⟨rfl, rfl⟩
  · intro last below
    have ticked : (tick s).ti = { s.ti with clockTicks := 0, clock := min (s.ti.clock + 1) 4294967295 } := if_neg (by omega)
    exact (congrArg Ti.clock ticked).trans (Nat.min_eq_left (by omega))
  · intro last top
    have ticked : (tick s).ti = { s.ti with clockTicks := 0, clock := min (s.ti.clock + 1) 4294967295 } := if_neg (by omega)
    exact (congrArg Ti.clock ticked).trans ((Nat.min_eq_right (by omega)).trans top.symm)

end Sys2Proof.Machine
end

section
/-! PROOFS of the trunk's statements: frames (R186, R187), the transmitter (R188, R202), the carrier (R205), and the notice
queue (R203, R204). -/

namespace Sys2Proof.Machine

/-! ## The notice queue (R203, R204) -/

theorem insertNotice_between {above below : List Notice} {n : Notice} (high : ∀ x ∈ above, n.cls ≤ x.cls)
    (low : ∀ x ∈ below, x.cls < n.cls) : insertNotice (above ++ below) n = above ++ n :: below := by
  induction above with
  | nil =>
    cases below with
    | nil => rfl
    | cons x l => exact if_pos (low x List.mem_cons_self)
  | cons x l ih =>
    obtain ⟨first, others⟩ := List.forall_mem_cons.1 high
    exact (if_neg (Nat.not_lt.2 first)).trans (congrArg (x :: ·) (ih others))

section

variable {q above below : List Notice} {n low : Notice} {lost : Nat}

theorem queueNotice_room (room : q.length < 32) : queueNotice q lost n = (insertNotice q n, lost) := if_pos room

theorem queueNotice_full (full : 32 ≤ q.length) (last : q.getLast? = some low) :
    queueNotice q lost n
      = if low.cls < n.cls then (insertNotice q.dropLast n, min (lost + 1) 255) else (q, min (lost + 1) 255) := by
  unfold queueNotice
  rw [if_neg (Nat.not_lt.2 full), last]

end

/-- Settles O52: the three outcomes of `queueNotice`, with the place `insertNotice` gives. -/
theorem noticesKeepTheirOrder : Obligations.NoticesKeepTheirOrder := by
  intro s b n
  have queue : ((s.post b).ti.notices, (s.post b).ti.noticesLost) = queueNotice s.ti.notices s.ti.noticesLost n := rfl
  refine ⟨rfl, ?_, ?_, ?_⟩
  case refine_1 =>
    intro above below split room high low
    rw [queueNotice_room room, split, insertNotice_between high low] at queue
    exact Prod.mk.inj queue
  case refine_2 =>
    intro kept low split full higher
    have last : s.ti.notices.getLast? = some low := by rw [split, List.getLast?_concat]
    rw [queueNotice_full full last, if_neg (Nat.not_lt.2 higher)] at queue
    exact Prod.mk.inj queue
  case refine_3 =>
    intro above below low split full lower high below_low
    have last : s.ti.notices.getLast? = some low := by rw [split, List.getLast?_concat]
    rw [queueNotice_full full last, if_pos lower, split, List.dropLast_concat,
      insertNotice_between high below_low] at queue
    exact Prod.mk.inj queue

/-! ## Taking the head of the ingress (R187) -/

section

variable {s : State} {d : Directive} {l : List Directive}

/-- TI may take a directive: none in hand, a place for its reply, no restart accepted (R187, R188, R200). -/
abbrev State.mayTake (s : State) : Prop :=
  s.ti.inHand = none ∧ s.ti.replies.length < 8 ∧ s.ti.restartPending = false

theorem State.takeNext_of_head (idle : s.mayTake) (head : s.ti.ingress = d :: l) :
    s.takeNext = { s with ti := { s.ti with ingress := l, inHand := some (.deciding d (s.reads d)) } } := by
  obtain ⟨free, room, running⟩ := idle
  unfold State.takeNext
  rw [free, head]
  exact if_pos ⟨rfl, room, running⟩

theorem State.takeNext_of_empty (head : s.ti.ingress = []) : s.takeNext = s := by
  rcases s.takeNext_cases with same | ⟨d, l, -, queue, -⟩
  · exact same
  · cases head.symm.trans queue

theorem State.takeNext_of_not (held : ¬ s.mayTake) : s.takeNext = s := by
  rcases s.takeNext_cases with same | ⟨d, l, free, -, room, running, -⟩
  · exact same
  · exact absurd ⟨free, room, running⟩ held

/-! ## Frames (R186 to R188) -/

theorem State.setFrameTail_same (tail : s.ti.frameTail = false) : s.setFrameTail false = s := by
  unfold State.setFrameTail
  rw [← tail]

theorem exec_frameReceived_good {f : Frame} (carrier : s.ti.carrier = true) (tail : s.ti.frameTail = false)
    (short : f.body.length ≤ 600) (good : frameCheckMatches f = true ∧ f.kind = 0x01#8) :
    exec (.frameReceived f) s = .next (s.arrive { tag := f.tag, body := f.body }) := by
  refine congrArg Host.Outcome.next ?_
  simp only [carrier, tail, Bool.not_true, Bool.false_and, Bool.or_self, Bool.false_eq_true, if_false]
  rw [if_neg (Nat.not_lt.2 short), s.setFrameTail_same tail]
  exact if_pos good

theorem exec_frameReceived_bad {f : Frame} (carrier : s.ti.carrier = true) (tail : s.ti.frameTail = false)
    (short : f.body.length ≤ 600) (bad : ¬ (frameCheckMatches f = true ∧ f.kind = 0x01#8)) :
    exec (.frameReceived f) s = .next s := by
  refine congrArg Host.Outcome.next ?_
  simp only [carrier, tail, Bool.not_true, Bool.false_and, Bool.or_self, Bool.false_eq_true, if_false]
  rw [if_neg (Nat.not_lt.2 short), s.setFrameTail_same tail]
  exact if_neg bad

/-- The ingress with a directive at its tail (R187). -/
def State.joinIngress (s : State) (d : Directive) : State :=
  { s with ti := { s.ti with ingress := s.ti.ingress ++ [d] } }

theorem State.arrive_room (room : s.ti.ingress.length < 4) :
    s.arrive d = (s.joinIngress d).takeNext := if_pos room

theorem State.arrive_full (full : 4 ≤ s.ti.ingress.length) :
    s.arrive d = if s.ti.replies.length < 7 then s.reply d .busy .empty else s := if_neg (Nat.not_lt.2 full)

end

/-- Settles O49: a good frame arrives (`State.arrive`), and the ingress and TI's hand decide what becomes of it. -/
theorem framesArriveOrAreDiscarded : Obligations.FramesArriveOrAreDiscarded := by
  refine ⟨?_, ?_⟩
  · intro s f carrier tail short d read good idle
    have arrives (h : good) : exec (.frameReceived f) s = .next (s.arrive d) := exec_frameReceived_good carrier tail short h
    refine ⟨?_, ?_, ?_, ?_, ?_, fun bad => exec_frameReceived_bad carrier tail short bad⟩
    · intro h empty free
      rw [arrives h, State.arrive_room (by simp [empty]),
        State.takeNext_of_head (s := s.joinIngress d) (d := d) (l := []) free (congrArg (· ++ [d]) empty)]
      simp only [State.joinIngress, ← empty]
      rfl
    · intro h room busy
      rw [arrives h, State.arrive_room room, State.takeNext_of_not (s := s.joinIngress d) busy]
      rfl
    · intro x l h queue room free
      rw [arrives h, State.arrive_room (by simp only [queue, List.length_cons]; omega),
        State.takeNext_of_head (s := s.joinIngress d) (d := x) (l := l ++ [d]) free (congrArg (· ++ [d]) queue)]
      rfl
    · intro h full room
      rw [arrives h, State.arrive_full full, if_pos room]
    · intro h full noRoom
      rw [arrives h, State.arrive_full full, if_neg (Nat.not_lt.2 noRoom)]
  · intro s f
    refine ⟨rfl, fun carrier => congrArg Host.Outcome.next (if_pos carrier), fun tail gap => ?_⟩
    have following : (s.ti.frameTail && decide (f.gap < frameGap)) = true := by simp [tail, frameGap, gap]
    exact congrArg Host.Outcome.next (if_pos (by rw [following, Bool.or_true]))

/-! ## The transmitter (R188, R202, R204) -/

theorem noticeKind_eq_zero_iff (b : NoticeBody) : noticeKind b = 0 ↔ ∃ c x, b = .startup c x := by
  cases b <;> simp [noticeKind]

section

variable {s : State} {n : Notice} {ns : List Notice} {r : Reply}

theorem State.startupWaits_iff :
    s.startupWaits = true ↔ ∃ n ns c x, s.ti.notices = n :: ns ∧ n.body = .startup c x := by
  unfold State.startupWaits
  cases s.ti.notices with
  | nil => simp
  | cons n ns =>
    rw [List.head?_cons, Option.map_some, decide_eq_true_iff, Option.some.injEq, noticeKind_eq_zero_iff]
    constructor
    · rintro ⟨c, x, body⟩
      exact ⟨n, ns, c, x, rfl, body⟩
    · rintro ⟨m, ms, c, x, queue, body⟩
      obtain ⟨rfl, rfl⟩ := List.cons.inj queue
      exact ⟨c, x, body⟩

theorem State.sendNotice_of_head (queue : s.ti.notices = n :: ns) :
    s.sendNotice = { s with ti := { s.ti with sending := some (.notice n), notices := ns } } := by
  unfold State.sendNotice
  rw [queue]

/-- A transmitter with carrier and nothing being sent starts what waits. -/
theorem exec_trunkSendStart_idle (carrier : s.ti.carrier = true) (idle : s.ti.sending = none) :
    exec .trunkSendStart s = .next (if s.startupWaits then s.sendNotice
      else match s.ti.replies with
        | r :: _ => { s with ti := { s.ti with sending := some (.reply r) } }
        | [] => s.sendNotice) := by
  refine congrArg Host.Outcome.next ((if_pos ⟨carrier, by rw [idle]; rfl⟩).trans ?_)
  rfl

/-- The reply being sent has left its list (R188). -/
def State.replySent (s : State) : State := { s with ti := { s.ti with sending := none, replies := s.ti.replies.tail } }

theorem exec_trunkSendComplete_reply (sending : s.ti.sending = some (.reply r)) (stays : r.restarts = false) :
    exec .trunkSendComplete s = .next s.replySent.takeNext := by
  refine congrArg Host.Outcome.next ?_
  rw [sending]
  dsimp only
  rw [stays]
  rfl

theorem exec_trunkSendComplete_restart (sending : s.ti.sending = some (.reply r)) (restarts : r.restarts = true) :
    exec .trunkSendComplete s = .next (s.resetWith { s.ti.causes with restart := true }) := by
  refine congrArg Host.Outcome.next ?_
  rw [sending]
  dsimp only
  rw [restarts]
  rfl

end

/-- Settles O50: the start by what waits, the end by what was sent. -/
theorem repliesGoBeforeNotices : Obligations.RepliesGoBeforeNotices := by
  intro s
  refine ⟨fun carrier idle => ⟨?_, ?_, ?_⟩, ?_, ?_, ?_⟩
  case refine_1 =>
    intro n ns c b queue body
    have waits : s.startupWaits = true := State.startupWaits_iff.2 ⟨n, ns, c, b, queue, body⟩
    rw [exec_trunkSendStart_idle carrier idle, if_pos waits, State.sendNotice_of_head queue]
  case refine_2 =>
    intro r rs replies none
    have quiet : ¬ s.startupWaits = true := by
      rw [State.startupWaits_iff]
      rintro ⟨n, ns, c, b, queue, body⟩
      exact none n (queue ▸ List.mem_cons_self) c b body
    rw [exec_trunkSendStart_idle carrier idle, if_neg quiet, replies]
  case refine_3 =>
    intro n ns replies queue
    rw [exec_trunkSendStart_idle carrier idle, replies, State.sendNotice_of_head queue]
    exact congrArg Host.Outcome.next (ite_self _)
  case refine_4 =>
    intro n sending
    refine congrArg Host.Outcome.next ?_
    rw [sending]
  case refine_5 =>
    intro r rs sending replies stays
    have left : s.replySent = { s with ti := { s.ti with sending := none, replies := rs } } := by
      unfold State.replySent
      rw [replies, List.tail_cons]
    rw [exec_trunkSendComplete_reply sending stays, left]
    refine ⟨fun held => congrArg Host.Outcome.next ?_, fun h l free head room running => congrArg Host.Outcome.next ?_⟩
    · rcases held with hand | empty | full | restarting
      · exact State.takeNext_busy hand
      · exact State.takeNext_of_empty empty
      · exact State.takeNext_of_not fun idle => absurd idle.2.1 (Nat.not_lt.2 full)
      · exact State.takeNext_of_not fun idle => Bool.noConfusion (restarting.symm.trans idle.2.2)
    · exact State.takeNext_of_head (s := { s with ti := { s.ti with sending := none, replies := rs } })
        ⟨free, room, running⟩ head
  case refine_6 =>
    intro r sending restarts causes
    exact ⟨_, exec_trunkSendComplete_restart sending restarts, rfl, Cs.restarted_of_idle, fun _ => Cs.restarted_of_writing⟩

/-! ## The carrier (R189, R200, R205) -/

/-- Settles O51: the carrier decides each row. -/
theorem carrierLossEndsTheSession : Obligations.CarrierLossEndsTheSession := by
  have absent {c : Bool} (h : c = false) : ¬ c = true := by simp [h]
  intro s
  refine ⟨fun carrier => ⟨_, congrArg Host.Outcome.next (if_pos carrier), rfl, rfl, rfl, rfl, rfl, rfl, rfl, rfl, rfl⟩, ?_, ?_, ?_⟩
  · exact fun carrier => congrArg Host.Outcome.next (if_neg (absent carrier))
  · exact fun carrier => congrArg Host.Outcome.next (if_neg (absent carrier))
  · exact fun carrier => congrArg Host.Outcome.next (if_pos carrier)

end Sys2Proof.Machine
end

section
/-! PROOFS of the directive statements: the credential and the code (R189 to R191), status, clock and protection (R196,
R199, R201), the reads (R38, R198), PASS_DOWN (R39, R40), and RESTART (R200). -/

namespace Sys2Proof.Machine

/-! ## A directive decided (R187, R189, R192) -/

section

variable {s : State} {d : Directive} {read : Taking} {mine : List Byte → Bool} {opened : Bool} {c : Byte} {f : List Byte}

theorem State.takeDirective_decided (hand : s.ti.inHand = some (.deciding d read)) (hm : mine d.body = true)
    (decides : (opened || read.verified) = true) (act : Directive → State → State) :
    s.takeDirective mine opened act
      = (act d (if d.body.head? = some codeRestart then s.dropHand else s.taken)).takeNext := by
  unfold State.takeDirective
  rw [hand]
  dsimp only
  rw [if_pos hm, if_pos decides]
  rfl

theorem State.takeDirective_unverified (h : s.underDecision = some (d, false)) (hm : mine d.body = true)
    (act : Directive → State → State) : s.takeDirective mine false act = s.dropHand.conclude d .unverified .empty := by
  obtain ⟨read, hand, unverified⟩ := (s.underDecision_iff d false).1 h
  unfold State.takeDirective
  rw [hand]
  dsimp only
  rw [if_pos hm, unverified]
  rfl

theorem hasCode_self (body : d.body = c :: f) : hasCode c d.body = true := by simp [hasCode, body]

/-- The row of a code decides a directive of that code: always where every credential state decides it, and else where its
taking read VERIFIED. -/
theorem State.takeDirective_coded (hand : s.ti.inHand = some (.deciding d read)) (decides : (opened || read.verified) = true)
    (body : d.body = c :: f) (other : c ≠ codeRestart) (act : Directive → State → State) :
    s.takeDirective (hasCode c) opened act = (act d s.taken).takeNext := by
  have notRestart : d.body.head? ≠ some codeRestart := by simpa [body] using other
  rw [State.takeDirective_decided hand (hasCode_self body) decides, if_neg notRestart]

theorem State.takeDirective_coded_verified (h : s.hasTakenVerified d) (body : d.body = c :: f) (other : c ≠ codeRestart)
    (opened : Bool) (act : Directive → State → State) : s.takeDirective (hasCode c) opened act = (act d s.taken).takeNext :=
  State.takeDirective_verified h (hasCode_self body) (by simpa [body] using other) opened act

theorem State.formed_coded (n : Nat) (body : d.body = c :: f) (size : f.length + 1 = n) (act : List Byte → State) :
    s.formed d n act = act f := by
  rw [State.formed_of_length (by rw [body, List.length_cons, size]), body, List.drop_one, List.tail_cons]

theorem State.hand_of_hasTaken (h : s.hasTaken d) : ∃ read, s.ti.inHand = some (.deciding d read) := by
  rcases h with h | h
  · exact ((s.underDecision_iff d true).1 h).imp fun _ => And.left
  · exact ((s.underDecision_iff d false).1 h).imp fun _ => And.left

theorem leNat_one (b : Byte) : leNat [b] = b.toNat := by simp [leNat]

theorem leNat_two (b0 b1 : Byte) : leNat [b0, b1] = b0.toNat + 256 * b1.toNat := by simp [leNat]

end

/-! ## The credential (R189, R190) -/

/-- Settles O53: each row hands its own code's directives to `State.takeDirective`, which refuses them. -/
theorem unverifiedDirectivesAreRefused : Obligations.UnverifiedDirectivesAreRefused := by
  intro s d unverified refusal
  refine ⟨?_, ?_, ?_, ?_⟩
  · have byCode (i : Instr) (c : Byte) (act : Directive → State → State)
        (row : exec i s = .next (s.takeDirective (hasCode c) false act)) (head : d.body.head? = some c) :
        exec i s = .next refusal :=
      row.trans (congrArg Host.Outcome.next (State.takeDirective_unverified unverified (by simp [hasCode, head]) act))
    simp only [List.forall_mem_cons]
    exact ⟨byCode _ _ _ rfl, byCode _ _ _ rfl, byCode _ _ _ rfl, byCode _ _ _ rfl, byCode _ _ _ rfl, byCode _ _ _ rfl,
      byCode _ _ _ rfl, byCode _ _ _ rfl, byCode _ _ _ rfl, byCode _ _ _ rfl, byCode _ _ _ rfl, byCode _ _ _ rfl,
      byCode _ _ _ rfl, byCode _ _ _ rfl, byCode _ _ _ rfl, byCode _ _ _ rfl, byCode _ _ _ rfl, fun _ => nofun⟩
  · intro body
    exact congrArg Host.Outcome.next (State.takeDirective_unverified unverified (by simp [body, codeRestart]) _)
  · intro head other
    exact congrArg Host.Outcome.next (State.takeDirective_unverified unverified (by simp [hasCode, head, codeRestart, other]) _)
  · intro c f body unknown
    exact congrArg Host.Outcome.next (State.takeDirective_unverified unverified (by simp [body, unknown]) _)

theorem Cs.blank_iff {c : Cs} (size : c.code.length = 6) :
    c.blank = true ↔ c.checkOk = false ∨ c.code = [0#8, 0#8, 0#8, 0#8, 0#8, 0#8] := by
  have zeros : c.code.all (· = 0#8) = true ↔ c.code = List.replicate 6 0#8 := by
    rw [List.all_eq_true, List.eq_replicate_iff]
    simp [size]
  unfold Cs.blank
  rw [Bool.or_eq_true, Bool.not_eq_true', zeros]
  rfl

theorem Cs.accepts_iff (c : Cs) (code : List Byte) : c.accepts code = true ↔ c.blank = true ∨ code = c.code := by
  simp [Cs.accepts]

theorem exec_checkCode_of_taken {s : State} {d : Directive} {read : Taking} {code : List Byte} (size : code.length = 6)
    (hand : s.ti.inHand = some (.deciding d read)) (body : d.body = 0x02#8 :: code) :
    exec .checkCode s = .next
      (if read.cs.accepts code then (s.taken.setCredential .verified).conclude d .ok (.credential .verified read.cs.blank)
        else (s.taken.setCredential .mismatch).conclude d .mismatch (.credential .mismatch read.cs.blank)) := by
  refine congrArg Host.Outcome.next ((State.takeDirective_coded hand rfl body (by decide) _).trans ?_)
  rw [State.formed_coded 7 body (by rw [size]), (s.atTaking_deciding d read hand).1]
  split <;> rfl

theorem exec_setCode_of_taken {s : State} {d : Directive} {code : List Byte} (size : code.length = 6)
    (taken : s.hasTakenVerified d) (body : d.body = 0x03#8 :: code) :
    exec .setCode s = .next
      (if s.cs.writing.isSome then s.taken.conclude d .busy .empty
        else ({ s.taken with cs := { s.cs with writing := some code } } : State).conclude d .ok .empty) := by
  refine congrArg Host.Outcome.next ((State.takeDirective_coded_verified taken body (by decide) _ _).trans ?_)
  rw [State.formed_coded 7 body (by rw [size])]
  show (if s.cs.writing.isSome then _ else _ : State).takeNext = _
  split <;> rfl

/-- Settles O54: what `Cs.accepts` decides of the store as it was taken, and the write's start and end. -/
theorem codeIsCheckedAndWritten : Obligations.CodeIsCheckedAndWritten := by
  intro s d code read size held s1 blank cred
  refine ⟨fun heldSize hand body => ⟨fun fits => ?_, fun full wrong => ?_⟩, fun taken body => ⟨fun idle => ?_, fun w busy => ?_⟩,
    fun writing => ?_⟩
  · have accepted : held.accepts code = true :=
      (held.accepts_iff code).2 (fits.imp_left (Cs.blank_iff heldSize).2)
    exact ⟨held.blank, Cs.blank_iff heldSize, by rw [exec_checkCode_of_taken size hand body, if_pos accepted]; rfl⟩
  · have notBlank : ¬ held.blank = true := fun h => full ((Cs.blank_iff heldSize).1 h)
    have refused : ¬ held.accepts code = true := fun h => ((held.accepts_iff code).1 h).elim notBlank wrong
    rw [exec_checkCode_of_taken size hand body, if_neg refused, Bool.eq_false_iff.2 notBlank]
    rfl
  · rw [exec_setCode_of_taken size taken body, idle]
    rfl
  · rw [exec_setCode_of_taken size taken body, busy]
    rfl
  · refine congrArg Host.Outcome.next ?_
    rw [writing]

/-! ## Status, clock and protection (R196, R199, R201) -/

/-- PROTECT and UNPROTECT share `State.changeProtect`. -/
theorem State.changeProtect_named {s : State} {d : Directive} {c b : Byte} {t : TableId} (body : d.body = [c, b])
    (named : tableOf b = some t) (on : Bool) : s.changeProtect d on
      = ({ s with ti := { s.ti with protect := s.ti.protect.change t on } } : State).reply d .ok .empty := by
  unfold State.changeProtect
  rw [State.formed_coded 2 body rfl, List.headD_cons, named]

/-- Settles O55: each row is decided by its code and form, and changes what its action names. -/
theorem statusClockAndProtectionChange : Obligations.StatusClockAndProtectionChange := by
  intro s d b0 b1 b2 b3 t taken s1
  refine ⟨fun body => ?_, fun body => ?_, fun body named => ?_, fun body named => ?_⟩ <;>
    refine congrArg Host.Outcome.next ((State.takeDirective_coded_verified taken body (by decide) _ _).trans ?_)
  · rw [State.formed_coded 1 body rfl]
    rfl
  · have clock : leNat [b0, b1, b2, b3] = b0.toNat + 256 * (b1.toNat + 256 * (b2.toNat + 256 * b3.toNat)) := by
      simp [leNat]
    rw [State.formed_coded 5 body rfl, clock]
    rfl
  · rw [State.changeProtect_named body named]
    rfl
  · rw [State.changeProtect_named body named]
    rfl

/-! ## Reads (R38, R198, R201) -/

theorem State.entryBody_taken (s : State) (t : TableId) (i : Nat) : s.taken.entryBody t i = s.entryBody t i := by
  cases t <;> rfl

section

variable {s : State} {t : TableId} {b : Byte} {i : Nat}

theorem State.readEntry_range (named : tableOf b = some t) (beyond : lastIndex t < i) :
    s.readEntry b i = (.range, .empty) := by
  unfold State.readEntry
  rw [named]
  exact if_pos beyond

theorem State.readEntry_place (named : tableOf b = some t) (within : i ≤ lastIndex t) :
    s.readEntry b i = (.ok, s.entryBody t i) := by
  unfold State.readEntry
  rw [named]
  exact if_neg (Nat.not_lt.2 within)

theorem State.readEntry_order (s : State) (i : Nat) :
    s.readEntry 7#8 i = match s.order i with
      | some o => (.ok, .order o)
      | none => (.notFound, .empty) := rfl

theorem State.readEntry_unknown (unnamed : tableOf b = none) (other : b ≠ 7#8) :
    s.readEntry b i = (.badForm, .empty) := by
  unfold State.readEntry
  rw [unnamed]
  exact if_neg other

end

theorem exec_readEntry_of_taken {s : State} {d : Directive} {b i0 i1 : Byte} (taken : s.hasTakenVerified d)
    (body : d.body = [0x11#8, b, i0, i1]) : exec .readEntry s
      = .next (s.taken.conclude d (s.taken.readEntry b (i0.toNat + 256 * i1.toNat)).1
          (s.taken.readEntry b (i0.toNat + 256 * i1.toNat)).2) := by
  refine congrArg Host.Outcome.next ((State.takeDirective_coded_verified taken body (by decide) _ _).trans ?_)
  rw [State.formed_coded 4 body rfl, ← leNat_two]
  rfl

/-- What the row of QUERY_NODE answers of an address once the directive has its form. -/
def State.answerQuery (s : State) (d : Directive) (a : Nat) : State :=
  if !addressInRange a then s.reply d .range .empty
  else match s.node a with
    | none => s.reply d .notFound .empty
    | some e => (s.setNode a { e with lineErrors := 0, rangeMark := false }).reply d .ok (.queried e)

theorem exec_queryNode_of_taken {s : State} {d : Directive} {b : Byte} (taken : s.hasTakenVerified d)
    (body : d.body = [0x41#8, b]) : exec .queryNode s = .next (s.taken.answerQuery d b.toNat).takeNext := by
  refine congrArg Host.Outcome.next ((State.takeDirective_coded_verified taken body (by decide) _ _).trans ?_)
  rw [State.formed_coded 2 body rfl, leNat_one]
  rfl

section

variable {s : State} {d : Directive} {a : Nat}

theorem State.answerQuery_range (h : addressInRange a = false) : s.answerQuery d a = s.reply d .range .empty := by
  unfold State.answerQuery
  rw [h]
  rfl

theorem State.answerQuery_absent (h : addressInRange a = true) (absent : s.node a = none) :
    s.answerQuery d a = s.reply d .notFound .empty := by
  unfold State.answerQuery
  rw [h, absent]
  rfl

theorem State.answerQuery_entry {e : NodeEntry} (h : addressInRange a = true) (entry : s.node a = some e) :
    s.answerQuery d a = (s.setNode a { e with lineErrors := 0, rangeMark := false }).reply d .ok (.queried e) := by
  unfold State.answerQuery
  rw [h, entry]
  rfl

end

/-- Settles O56: the answers of the four reads, each by what stands at the place asked for. -/
theorem readsAnswerAndChangeLittle : Obligations.ReadsAnswerAndChangeLittle := by
  refine ⟨?_, ?_, ?_⟩
  · intro s d b i0 i1 taken body s1 i
    refine ⟨fun t named beyond => ?_, fun t named within => ?_, fun orders absent => ?_, fun o orders found => ?_,
      fun unnamed other => ?_⟩ <;> rw [exec_readEntry_of_taken taken body]
    · rw [State.readEntry_range named beyond]
    · rw [State.readEntry_place named within, State.entryBody_taken]
    · have : s.taken.order (i0.toNat + 256 * i1.toNat) = none := absent
      rw [orders, State.readEntry_order, this]
    · have : s.taken.order (i0.toNat + 256 * i1.toNat) = some o := found
      rw [orders, State.readEntry_order, this]
    · rw [State.readEntry_unknown unnamed other]
  · intro s d taken s1
    obtain ⟨read, hand⟩ := State.hand_of_hasTaken taken
    refine ⟨fun body => ?_, fun body => ?_⟩ <;>
      refine congrArg Host.Outcome.next ((State.takeDirective_coded hand rfl body (by decide) _).trans ?_) <;>
      rw [State.formed_coded 1 body rfl] <;> rfl
  · intro s d b taken body s1
    refine ⟨fun range => ?_, fun range absent => ?_, fun e range entry => ?_⟩ <;> rw [exec_queryNode_of_taken taken body]
    · rw [State.answerQuery_range range]
      rfl
    · rw [State.answerQuery_absent (s := s.taken) range absent]
      rfl
    · rw [State.answerQuery_entry (s := s.taken) range entry]
      rfl

/-! ## RESTART (R200) -/

section

variable {s : State} {d : Directive} {mine : List Byte → Bool}

theorem State.takeDirective_restart (h : s.hasTakenVerified d) (hm : mine d.body = true)
    (restart : d.body.head? = some codeRestart) (act : Directive → State → State) :
    s.takeDirective mine false act = (act d s.dropHand).takeNext := by
  obtain ⟨read, hand, verified⟩ := (s.underDecision_iff d true).1 h
  rw [State.takeDirective_decided (opened := false) hand hm verified, if_pos restart]

theorem exec_restartPhase1_of_taken {b : Byte} (taken : s.hasTakenVerified d) (body : d.body = [0x50#8, b])
    (first : b ≠ 0x02#8) : exec .restartPhase1 s = .next
      (if b = 0x01#8 then
        if s.fz.fireActive then s.dropHand.conclude d .badState .empty else (s.dropHand.arm true).conclude d .ok .empty
      else s.dropHand.conclude d .range .empty) := by
  have mine : (hasCode codeRestart d.body && d.body ≠ [codeRestart, 0x02#8]) = true := by
    simp [hasCode, body, codeRestart, first]
  refine congrArg Host.Outcome.next ((State.takeDirective_restart taken mine (by simp [body, codeRestart]) _).trans ?_)
  rw [State.formed_coded 2 body rfl]
  by_cases one : b = 0x01#8
  · rw [if_pos one, if_pos (by rw [one])]
    exact apply_ite State.takeNext _ _ _
  · rw [if_neg one, if_neg (by simpa using one)]
    rfl

theorem exec_restartPhase2_of_taken (taken : s.hasTakenVerified d) (body : d.body = [0x50#8, 0x02#8]) :
    exec .restartPhase2 s = .next
      (if !s.ti.restartArmed then s.dropHand.conclude d .badState .empty
        else if s.fz.fireActive then (s.dropHand.arm false).conclude d .badState .empty
        else (s.dropHand.acceptRestart d).takeNext) := by
  refine congrArg Host.Outcome.next ((State.takeDirective_restart taken (by simp [body, codeRestart])
    (by simp [body, codeRestart]) _).trans ?_)
  show (if !s.ti.restartArmed then _ else if s.fz.fireActive then _ else _ : State).takeNext = _
  rw [apply_ite State.takeNext, apply_ite State.takeNext]
  rfl

end

/-- Settles O60: the phase, the mark and FIRE_ACTIVE decide the two rows. -/
theorem restartTakesTwoPhases : Obligations.RestartTakesTwoPhases := by
  intro s d b taken s1
  refine ⟨fun body quiet => ?_, fun body fire => ?_, fun body one two => ?_, fun body unarmed => ?_, fun body armed fire => ?_,
    fun body armed quiet => ?_, fun c f body unknown => ?_⟩
  · rw [exec_restartPhase1_of_taken taken body (by decide), quiet]
    rfl
  · rw [exec_restartPhase1_of_taken taken body (by decide), fire]
    rfl
  · rw [exec_restartPhase1_of_taken taken body two, if_neg one]
    rfl
  · rw [exec_restartPhase2_of_taken taken body, unarmed]
    rfl
  · rw [exec_restartPhase2_of_taken taken body, armed, fire]
    rfl
  · rw [exec_restartPhase2_of_taken taken body, armed, quiet]
    exact congrArg Host.Outcome.next (State.takeNext_of_not fun idle => Bool.noConfusion idle.2.2)
  · have other : d.body.head? ≠ some codeRestart := by
      rintro restart
      rw [body, List.head?_cons, Option.some.injEq] at restart
      exact unknown (by rw [restart]; decide)
    exact congrArg Host.Outcome.next (State.takeDirective_verified taken (by simp [body, unknown]) other false _)

/-! ## PASS_DOWN (R39, R40, R192) -/

/-- What the row of PASS_DOWN answers, the filter being as it was taken. -/
theorem exec_passDown_of_taken {s : State} {d : Directive} {read : Taking} {dest kind p : Byte} {payload : List Byte}
    (hand : s.ti.inHand = some (.deciding d read)) (verified : read.verified = true)
    (body : d.body = 0x40#8 :: dest :: kind :: p :: payload) (size : payload.length = p.toNat) :
    exec .passDown s = .next (match read.filter with
      | some r => s.taken.conclude d r .empty
      | none => (s.taken.passDown d dest.toNat kind payload).takeNext) := by
  refine congrArg Host.Outcome.next ((State.takeDirective_coded (opened := false) hand verified body (by decide) _).trans ?_)
  rw [body, (s.atTaking_deciding d read hand).2]
  dsimp only
  rw [if_pos size]
  cases read.filter <;> rfl

theorem exec_passDown_badForm {s : State} {d : Directive} {f : List Byte} (taken : s.hasTakenVerified d)
    (body : d.body = 0x40#8 :: f)
    (bad : f.length < 3 ∨ ∃ dest kind p payload, f = dest :: kind :: p :: payload ∧ payload.length ≠ p.toNat) :
    exec .passDown s = .next (s.taken.conclude d .badForm .empty) := by
  refine congrArg Host.Outcome.next ((State.takeDirective_coded_verified taken body (by decide) _ _).trans ?_)
  rw [body]
  rcases bad with short | ⟨dest, kind, p, payload, rfl, size⟩
  · match f, short with
    | [], _ => rfl
    | [_], _ => rfl
    | [_, _], _ => rfl
  · dsimp only
    rw [if_neg size]
    rfl

/-- The request of a PASS_DOWN's telegram, the directive held in hand (R40). -/
theorem State.passDown_room {s : State} (d : Directive) (dest : Nat) (kind : Byte) (payload : List Byte)
    (room : s.lif.txq.length < 24) : (s.passDown d dest kind payload).takeNext
      = ({ s with ti := { s.ti with inHand := some (.passDown d) } } : State).placeTx
          { cls := .display, dest := dest, kind := kind, payload := payload, origin := .passDown } := by
  unfold State.passDown State.requestTx
  rw [if_pos room]
  exact State.takeNext_busy (by simp [State.placeTx])

theorem State.passDown_full {s : State} (d : Directive) (dest : Nat) (kind : Byte) (payload : List Byte)
    (full : 24 ≤ s.lif.txq.length) (free : s.ti.inHand = none) :
    (s.passDown d dest kind payload).takeNext = s.conclude d .ok (.outcome .dropped) := by
  have back : ({ s with ti := { s.ti with inHand := some (.passDown d) } } : State).dropHand = s := by
    unfold State.dropHand
    rw [← free]
  unfold State.passDown State.requestTx
  rw [if_neg (Nat.not_lt.2 full)]
  dsimp only
  rw [evictee_display]
  show (State.passDownOutcome _ _).takeNext = _
  unfold State.passDownOutcome
  dsimp only
  rw [back]
  exact State.takeNext_takeNext _

section

variable {u : State} {dest kind : Nat} {payload : List Byte} {e : NodeEntry}

theorem State.judgePassDown_range (h : addressInRange dest = false ∨ kind < 192 ∨ 40 < payload.length) :
    u.judgePassDown dest kind payload = some .range := by
  unfold State.judgePassDown
  exact if_pos (h.imp_left fun h => by simp [h])

/-- What the filter says of a node's entry, destination, kind and payload being in range (R39). -/
def State.judgeNodePassDown (u : State) (dest : Nat) (e : NodeEntry) : Option Result :=
  match e.cls with
  | .lock | .suppression => some .owned
  | .dehumidifier | .humidifier =>
    match u.plantZoneOf dest e.cls with
    | none => none
    | some (z, r, g) =>
      match g.mode with
      | .auto => some .owned
      | .manual => if u.isShut z r then some .badState else none
  | .detector => if u.quietZone e.zone then none else some .badState
  | .probe | .slotStrip | .hatchReader | .courierTerminal | .pickDisplay => none

theorem State.judgePassDown_inRange (range : addressInRange dest = true) (custom : 192 ≤ kind) (short : payload.length ≤ 40) :
    u.judgePassDown dest kind payload = match u.node dest with
      | none => some .notFound
      | some e => u.judgeNodePassDown dest e := by
  unfold State.judgePassDown
  rw [if_neg (by simp [range, custom, short])]
  rfl

theorem State.isShut_iff {z : Nat} {r : Role} :
    u.isShut z r = true ↔ ∃ a, u.actuator z r = some a ∧ a.state = .shut := by
  unfold State.isShut meets
  cases u.actuator z r <;> simp

/-- A plant node that a zone names: OWNED in AUTO, and in MANUAL refused only where its record is SHUT (R39). -/
theorem State.judgeNodePassDown_plant {z : Nat} {r : Role} {g : ClimateGroup}
    (cls : e.cls = .dehumidifier ∨ e.cls = .humidifier) (named : u.plantZoneOf dest e.cls = some (z, r, g)) :
    u.judgeNodePassDown dest e = match g.mode with
      | .auto => some .owned
      | .manual => if u.isShut z r then some .badState else none := by
  unfold State.judgeNodePassDown
  rcases cls with cls | cls <;>
    · rw [cls] at named ⊢
      dsimp only
      rw [named]

theorem State.judgeNodePassDown_unnamed (cls : e.cls = .dehumidifier ∨ e.cls = .humidifier)
    (unnamed : u.plantZoneOf dest e.cls = none) : u.judgeNodePassDown dest e = none := by
  unfold State.judgeNodePassDown
  rcases cls with cls | cls <;>
    · rw [cls] at unnamed ⊢
      dsimp only
      rw [unnamed]

end

/-- Settles O59: the row reads the filter of the taking, and the filter is `State.judgePassDown` line by line. -/
theorem passDownIsFilteredAndQueued : Obligations.PassDownIsFilteredAndQueued := by
  refine ⟨fun s d f taken body bad => exec_passDown_badForm taken body bad, ?_⟩
  intro u s d read dest kind p payload hand verified filter body size s1 e queued
  have judged : read.filter = u.judgePassDown dest.toNat kind.toNat payload := by
    rw [filter]
    show u.passDownFilter d.body = _
    rw [body]
    exact if_pos ⟨rfl, size⟩
  have row := exec_passDown_of_taken hand verified body size
  rw [judged] at row
  have refused {r : Result} (h : u.judgePassDown dest.toNat kind.toNat payload = some r) :
      exec .passDown s = .next (s1.conclude d r .empty) := by rw [row, h]
  have passed (h : u.judgePassDown dest.toNat kind.toNat payload = none) : queued := by
    rw [h] at row
    refine ⟨fun room => row.trans (congrArg Host.Outcome.next ?_), fun full => row.trans (congrArg Host.Outcome.next ?_)⟩
    · exact State.passDown_room (s := s.taken) d dest.toNat kind payload room
    · exact State.passDown_full (s := s.taken) d dest.toNat kind payload full rfl
  refine ⟨fun bad => refused (State.judgePassDown_range bad), fun range custom short => ?_⟩
  have inRange := State.judgePassDown_inRange (u := u) range custom short
  have entry {n : NodeEntry} (h : u.node dest.toNat = some n) :
      u.judgePassDown dest.toNat kind.toNat payload = u.judgeNodePassDown dest.toNat n := by rw [inRange, h]
  refine ⟨fun absent => refused (inRange.trans (by rw [show u.node dest.toNat = none from absent])), ?_, ?_, ?_, ?_, ?_⟩
  case refine_1 =>
    intro n node cls
    refine refused ((entry node).trans ?_)
    unfold State.judgeNodePassDown
    rcases cls with cls | cls <;> rw [cls]
  case refine_2 =>
    intro n node cls
    have detector : u.judgeNodePassDown dest.toNat n = if u.quietZone n.zone then none else some .badState := by
      unfold State.judgeNodePassDown
      rw [cls]
    refine ⟨fun loud => refused ?_, fun quiet => passed ?_⟩ <;> rw [entry node, detector]
    · rw [loud]
      rfl
    · rw [quiet]
      rfl
  case refine_3 =>
    intro n node cls
    refine passed ((entry node).trans ?_)
    unfold State.judgeNodePassDown
    rcases cls with cls | cls | cls | cls | cls <;> rw [cls]
  case refine_4 =>
    intro n z r g node cls named
    have plant := (entry node).trans (State.judgeNodePassDown_plant cls named)
    refine ⟨fun auto => refused ?_, fun a manual record shut => refused ?_, fun manual running => passed ?_⟩
    · rw [plant, auto]
    · rw [plant, manual]
      exact if_pos (State.isShut_iff.2 ⟨a, record, shut⟩)
    · rw [plant, manual]
      exact if_neg fun h => (State.isShut_iff.1 h).elim fun a h => running a h.1 h.2
  case refine_5 =>
    intro n node cls unnamed
    exact passed ((entry node).trans (State.judgeNodePassDown_unnamed cls unnamed))

end Sys2Proof.Machine
end

section
/-! PROOFS of the field loop's reception (R1 to R6, R9 to R12, R28 to R36), with the facts about supervision that the loop
and the node rows share. -/

namespace Sys2Proof.Machine

/-! ## A change of supervision (R32, R34) -/

/-- A notice depends on TI and the SITE entry alone (R203, R204). -/
theorem State.post_ti_congr {s t : State} (ti : t.ti = s.ti) (zt : t.zt = s.zt) (b : NoticeBody) :
    (t.post b).ti = (s.post b).ti := by
  unfold State.post State.noticeClass
  rw [ti, zt]

section

variable (s : State) (a : Nat) (e : NodeEntry) (w : NodeReason)

theorem State.changeSupervision_nodes : (s.changeSupervision a e w).nt.nodes = Table.put s.nt.nodes a e := by
  unfold State.changeSupervision
  dsimp only
  split
  · rw [State.recountHealthy_nt]
    rfl
  · rfl

@[simp] theorem State.node_changeSupervision_same : (s.changeSupervision a e w).node a = some e := by
  unfold State.node
  rw [State.changeSupervision_nodes, Table.get_put_same]

theorem State.node_changeSupervision_other {b : Nat} (other : b ≠ a) :
    (s.changeSupervision a e w).node b = s.node b := by
  unfold State.node
  rw [State.changeSupervision_nodes, Table.get_put_other _ _ other]

/-- FZ confirms a PRE_ALARM by a healthy count below 2, and else does nothing with it (R100). -/
theorem State.healthyCount_cases (s : State) (z n : Nat) : s.healthyCount z n = s
    ∨ ((s.fire z).state = .preAlarm ∧ n ≤ 1) ∧ s.healthyCount z n = s.confirmFire z .healthyCount none := by
  unfold State.healthyCount
  split
  · rename_i falls
    exact .inr ⟨falls, rfl⟩
  · exact .inl rfl

theorem State.recountHealthy_cases (s : State) (z : Nat) : ∃ u : State, u.ti = s.ti ∧ u.fz = s.fz
    ∧ (s.recountHealthy z = u
        ∨ (s.fire z).state = .preAlarm ∧ s.recountHealthy z = u.confirmFire z .healthyCount none) := by
  unfold State.recountHealthy
  dsimp only
  split
  · exact ⟨s, rfl, rfl, .inl rfl⟩
  · rcases State.healthyCount_cases ({ s with nt := { s.nt with
        healthyCount := s.nt.healthyCount.set z (countHealthy s.nt.nodes z) } } : State).evalFault z
        (countHealthy s.nt.nodes z) with ended | ⟨⟨falls, -⟩, confirmed⟩
    · refine ⟨_, ?_, ?_, .inl ended⟩ <;> rfl
    · refine ⟨_, ?_, ?_, .inr ⟨falls, confirmed⟩⟩ <;> rfl

/-- After its notice and its counts a change of supervision has ended, or a PRE_ALARM is confirmed by the fall of the healthy
count (R100). -/
theorem State.changeSupervision_cases : ∃ u : State, u.ti = (s.post (.nodeState a e.cls e.zone e.sup w)).ti
    ∧ (s.changeSupervision a e w = u ∨ (e.cls = .detector ∧ (s.fire e.zone).state = .preAlarm)
        ∧ s.changeSupervision a e w = u.confirmFire e.zone .healthyCount none) := by
  unfold State.changeSupervision
  dsimp only
  split
  · rename_i detector
    obtain ⟨u, ti, -, ended | ⟨falls, confirmed⟩⟩ := State.recountHealthy_cases
      ((s.setNode a e).post (.nodeState a e.cls e.zone e.sup w)).recountDown e.zone
    · exact ⟨u, ti, .inl ended⟩
    · exact ⟨u, ti, .inr ⟨⟨detector, falls⟩, confirmed⟩⟩
  · exact ⟨((s.setNode a e).post (.nodeState a e.cls e.zone e.sup w)).recountDown, rfl, .inl rfl⟩

end

theorem State.changeSupervision_ti {s : State} {e : NodeEntry} (calm : e.cls = .detector → (s.fire e.zone).state ≠ .preAlarm)
    (a : Nat) (w : NodeReason) : (s.changeSupervision a e w).ti = (s.post (.nodeState a e.cls e.zone e.sup w)).ti := by
  obtain ⟨u, ti, ended | ⟨⟨detector, falls⟩, -⟩⟩ := s.changeSupervision_cases a e w
  · rw [ended, ti]
  · exact absurd falls (calm detector)

/-! ## The end of a reception (R1 to R3) -/

theorem byte_toNat_eq {b : Byte} {n : Nat} (small : n < 256) : b.toNat = n ↔ b = BitVec.ofNat 8 n := by
  rw [← BitVec.toNat_inj, BitVec.toNat_ofNat, Nat.mod_eq_of_lt small]

theorem dest_unicast_iff (t : Telegram) : t.dest.toNat = 127 ↔ t.dest = 127#8 := byte_toNat_eq (by decide)

theorem telegramReaches_iff (t : Telegram) :
    telegramReaches t = true ↔ telegramCheckMatches t = true ∧ (t.dest = 127#8 ∨ t.dest = 0#8) := by
  unfold telegramReaches
  rw [Bool.and_eq_true, Bool.or_eq_true, decide_eq_true_iff, decide_eq_true_iff, dest_unicast_iff,
    byte_toNat_eq (n := 0) (by decide)]

/-- A damaged or misdirected telegram does not reach the part. -/
theorem telegramReaches_not {t : Telegram} (bad : telegramCheckMatches t = false ∨ (t.dest ≠ 0#8 ∧ t.dest ≠ 127#8)) :
    telegramReaches t = false := by
  rw [Bool.eq_false_iff]
  intro reaches
  obtain ⟨matched, dest⟩ := (telegramReaches_iff t).1 reaches
  rcases bad with bad | ⟨notAll, notPart⟩
  · exact Bool.noConfusion (matched.symm.trans bad)
  · exact dest.elim notPart notAll

section

variable {s : State} {b : Byte}

/-- A line error changes the nodes alone, and there the named entry's count (R3). -/
theorem State.lineError_cases (s : State) (a : Nat) : (s.node a = none ∧ s.lineError a = s)
    ∨ ∃ e, s.node a = some e ∧ s.lineError a = s.setNode a { e with lineErrors := min (e.lineErrors + 1) 255 } := by
  unfold State.lineError
  cases h : s.node a with
  | none => exact .inl ⟨rfl, rfl⟩
  | some e => exact .inr ⟨e, rfl, rfl⟩

/-- A reception discarded: the loop stands as `l`, and the node a line error names has its count raised (R2, R3). -/
def State.discarded (s : State) (l : Lif) (a : Nat) : State := { s.lineError a with lif := l }

theorem State.discarded_spec (s : State) (l : Lif) (a : Nat) :
    s.discarded l a = { s with lif := l, nt := { s.nt with nodes := (s.discarded l a).nt.nodes } }
      ∧ (∀ e, s.node a = some e →
          (s.discarded l a).node a = some { e with lineErrors := min (e.lineErrors + 1) 255 })
      ∧ (∀ c, c ≠ a → (s.discarded l a).node c = s.node c) ∧ (s.node a = none → (s.discarded l a).nt = s.nt) := by
  unfold State.discarded
  rcases s.lineError_cases a with ⟨absent, same⟩ | ⟨e, entry, raised⟩
  · rw [same]
    exact ⟨rfl, fun e entry => absurd entry (by simp [absent]), fun _ _ => rfl, fun _ => rfl⟩
  · rw [raised]
    refine ⟨rfl, fun f other => ?_, fun c other => s.node_setNode_other _ other, fun absent => ?_⟩
    · obtain rfl : e = f := Option.some.inj (entry.symm.trans other)
      exact s.node_setNode_same a _
    · rw [entry] at absent
      cases absent

theorem State.lineError_lif (s : State) (l : Lif) (a : Nat) :
    ({ s with lif := l } : State).lineError a = s.discarded l a := by
  unfold State.discarded State.lineError
  rw [show ({ s with lif := l } : State).node a = s.node a from rfl]
  cases s.node a <;> rfl

theorem State.rejectLength_discarded (s : State) (b : Byte) : s.rejectLength b
    = s.discarded { s.lif with loop := .quiet, quiet := 0, tail := true, answer := none } b.toNat := by
  unfold State.rejectLength State.discarded
  rcases s.lineError_cases b.toNat with ⟨-, same⟩ | ⟨e, -, raised⟩
  · rw [same]
  · rw [raised]
    rfl

theorem exec_byteTimeout_named (receiving : s.lif.loop = .receiving) : exec (.byteTimeout (some b)) s
    = .next (s.discarded { s.lif with loop := .quiet, quiet := 2, tail := false, answer := none } b.toNat) := by
  refine congrArg Host.Outcome.next ((if_pos receiving).trans ?_)
  unfold State.discarded
  rcases s.lineError_cases b.toNat with ⟨-, same⟩ | ⟨e, -, raised⟩
  · dsimp only
    rw [same]
    rfl
  · dsimp only
    rw [raised]
    rfl

theorem exec_lengthAbove40_receiving (receiving : s.lif.loop = .receiving) :
    exec (.lengthAbove40 b) s = .next (s.rejectLength b) := congrArg Host.Outcome.next (if_pos receiving)

section

variable {t : Telegram}

theorem exec_telegramReceived_bad (receiving : s.lif.loop = .receiving) (short : t.payload.length ≤ 40)
    (bad : telegramReaches t = false) : exec (.telegramReceived t) s
      = .next (s.discarded { s.lif with loop := .quiet, quiet := 0, tail := false, answer := none } t.src.toNat) := by
  refine congrArg Host.Outcome.next ((if_pos receiving).trans ((if_neg (Nat.not_lt.2 short)).trans ?_))
  dsimp only
  rw [if_neg (by simp [bad])]
  show (State.lineError { s with lif := _ } _).setAnswer none = _
  rw [State.lineError_lif]
  rfl

theorem exec_telegramReceived_reaching (receiving : s.lif.loop = .receiving) (short : t.payload.length ≤ 40)
    (reaches : telegramReaches t = true) : exec (.telegramReceived t) s
      = .next (if addressInRange t.src.toNat then (s.quietLoop 0).decideTelegram t else (s.quietLoop 0).setAnswer none) := by
  refine congrArg Host.Outcome.next ((if_pos receiving).trans ((if_neg (Nat.not_lt.2 short)).trans ?_))
  dsimp only
  rw [if_pos reaches]

/-- A valid telegram is decided on the quiet loop. -/
theorem exec_telegramReceived_valid (receiving : s.lif.loop = .receiving) (short : t.payload.length ≤ 40)
    (matched : telegramCheckMatches t = true) (dest : t.dest = 127#8 ∨ t.dest = 0#8)
    (source : addressInRange t.src.toNat = true) :
    exec (.telegramReceived t) s = .next ((s.quietLoop 0).decideTelegram t) := by
  rw [exec_telegramReceived_reaching receiving short ((telegramReaches_iff t).2 ⟨matched, dest⟩), if_pos source]

end

/-! ## A start byte (R1, R2) -/

theorem exec_startByteReceived_quiet {q : Nat} (quiet : s.lif.slotOver.loop = .quiet) : exec (.startByteReceived q) s
    = .next (if s.lif.slotOver.tail && decide (q ≤ byteTimeout) then { s with lif := { s.lif.slotOver with quiet := 0 } }
        else { s with lif := { s.lif.slotOver with loop := .receiving, quiet := 0, tail := false } }) :=
  congrArg Host.Outcome.next (if_pos quiet)

theorem Lif.slotOver_quiet {l : Lif} (quiet : l.loop = .quiet) : l.slotOver = l := by
  unfold Lif.slotOver
  rw [quiet]
  rfl

theorem Lif.slotOver_answering {l : Lif} (answering : l.loop = .answering) :
    l.slotOver = { l with loop := .quiet, quiet := 0, answer := none } := if_pos answering

end

/-- Settles O9: every discarded reception is `State.discarded`, and the start byte finds the loop as `Lif.slotOver` says. -/
theorem receptionsOpenAndAreDiscarded : Obligations.ReceptionsOpenAndAreDiscarded := by
  refine ⟨?_, ?_, ?_, ?_⟩
  · intro s b receiving discarded
    have spec (q : Nat) (tail : Bool) : discarded q tail
        (s.discarded { s.lif with loop := .quiet, quiet := q, tail := tail, answer := none } b.toNat) :=
      s.discarded_spec _ _
    refine ⟨⟨_, exec_byteTimeout_named receiving, spec 2 false⟩, congrArg Host.Outcome.next (if_pos receiving),
      ⟨_, (exec_lengthAbove40_receiving receiving).trans (congrArg Host.Outcome.next (s.rejectLength_discarded b)), spec 0 true⟩, ?_⟩
    rintro tel rfl short bad
    exact ⟨_, exec_telegramReceived_bad receiving short (telegramReaches_not bad), spec 0 false⟩
  · intro s tel receiving short matched dest source
    have reaches : telegramReaches tel = true := (telegramReaches_iff tel).2 ⟨matched, dest.symm⟩
    have noNode : ¬ addressInRange tel.src.toNat = true := by
      unfold addressInRange
      rcases source with source | source
      · simp [source]
      · simp only [Bool.and_eq_true, decide_eq_true_iff]
        omega
    rw [exec_telegramReceived_reaching receiving short reaches, if_neg noNode]
    rfl
  · intro s q quiet
    have ended : s.lif.slotOver = s.lif := Lif.slotOver_quiet quiet
    have row := exec_startByteReceived_quiet (s := s) (q := q) (by rw [ended, quiet])
    rw [ended] at row
    refine ⟨fun opens => row.trans (congrArg Host.Outcome.next (if_neg ?_)),
      fun tail near => row.trans (congrArg Host.Outcome.next (if_pos ?_))⟩
    · rcases opens with clear | far
      · simp [clear]
      · simp [byteTimeout, Nat.not_le.2 far]
    · simp [tail, byteTimeout, near]
  · intro s q answering clear
    have ended := Lif.slotOver_answering answering
    rw [exec_startByteReceived_quiet (by rw [ended]), ended]
    refine congrArg Host.Outcome.next ((if_neg (by simp [clear])).trans ?_)
    rw [← clear]

/-! ## A valid telegram (R4 to R6, R9, R11) -/

section

variable {s : State} {t : Telegram} {e : NodeEntry}

theorem slotAnswer_eq (t : Telegram) (a : Answer) : slotAnswer t a = if t.dest = 127#8 then some a else none := by
  unfold slotAnswer
  simp only [dest_unicast_iff]

/-- The loop after a valid telegram that is acknowledged where it is unicast (R7, R9). -/
theorem State.setAnswer_ack (s : State) (t : Telegram) : (s.quietLoop 0).setAnswer (slotAnswer t .ack)
    = { s with lif := { s.lif with
          loop := (if t.dest = 127#8 then .answering else .quiet), quiet := 0, tail := false,
          answer := (if t.dest = 127#8 then some .ack else none) } } := by
  rw [slotAnswer_eq]
  by_cases unicast : t.dest = 127#8
  · rw [if_pos unicast, if_pos unicast]
    rfl
  · rw [if_neg unicast, if_neg unicast]
    rfl

theorem State.decideTelegram_unknown (absent : s.node t.src.toNat = none) :
    s.decideTelegram t = (s.setAnswer (slotAnswer t .ack)).unknownSource t.src.toNat t.kind := by
  unfold State.decideTelegram
  rw [absent]

theorem State.decideTelegram_duplicate (entry : s.node t.src.toNat = some e) (same : e.lastSeq = some t.seq) :
    s.decideTelegram t = s.setAnswer (slotAnswer t .ack) := by
  unfold State.decideTelegram
  rw [entry]
  exact if_pos same

theorem State.decideTelegram_new (entry : s.node t.src.toNat = some e) (new : e.lastSeq ≠ some t.seq) :
    s.decideTelegram t = if s.lif.ring.length < 16 then s.accept t e
      else if t.dest.toNat = 127 then s.refuseBusy else s.setAnswer none := by
  unfold State.decideTelegram
  rw [entry]
  exact if_neg new

theorem State.decideTelegram_full (entry : s.node t.src.toNat = some e) (new : e.lastSeq ≠ some t.seq)
    (full : 16 ≤ s.lif.ring.length) : s.decideTelegram t = if t.dest = 127#8 then s.refuseBusy else s.setAnswer none := by
  rw [State.decideTelegram_new entry new, if_neg (Nat.not_lt.2 full)]
  simp only [dest_unicast_iff]

end

/-- Settles O10: the duplicate is answered as any valid telegram is, and no more. -/
theorem duplicateIsAcknowledgedAndDiscarded : Obligations.DuplicateIsAcknowledgedAndDiscarded := by
  intro s tel e receiving short matched dest source entry same
  rw [exec_telegramReceived_valid receiving short matched dest source, State.decideTelegram_duplicate (s := s.quietLoop 0) entry same,
    State.setAnswer_ack]

/-- Settles O13: the mark decides whether the address is told. -/
theorem unknownSourceIsReportedOnce : Obligations.UnknownSourceIsReportedOnce := by
  intro s tel receiving short matched dest source absent quiet
  rw [exec_telegramReceived_valid receiving short matched dest source, State.decideTelegram_unknown (s := s.quietLoop 0) absent,
    State.setAnswer_ack]
  exact ⟨fun marked => congrArg Host.Outcome.next (if_pos marked), fun unmarked => congrArg Host.Outcome.next (if_neg unmarked)⟩

/-- Settles O12: BUSY by `State.refuseBusy`, a broadcast dropped. -/
theorem fullRingAnswersBusy : Obligations.FullRingAnswersBusy := by
  intro s tel e receiving short matched source entry new full left
  have decided (dest : tel.dest = 127#8 ∨ tel.dest = 0#8) : exec (.telegramReceived tel) s
      = .next (if tel.dest = 127#8 then (s.quietLoop 0).refuseBusy else (s.quietLoop 0).setAnswer none) := by
    rw [exec_telegramReceived_valid receiving short matched dest source,
      State.decideTelegram_full (s := s.quietLoop 0) entry new full]
  refine ⟨fun unicast marked => ?_, fun unicast unmarked => ?_, fun broadcast => ?_⟩
  · rw [decided (.inl unicast), if_pos unicast]
    refine congrArg Host.Outcome.next ((if_pos marked).trans ?_)
    rw [show left (some .busy) true = left (some .busy) s.lif.congested by rw [marked]]
    rfl
  · rw [decided (.inl unicast), if_pos unicast]
    exact congrArg Host.Outcome.next (if_neg (by simp [unmarked, State.setAnswer, State.quietLoop]))
  · rw [decided (.inr broadcast), if_neg (by rw [broadcast]; decide)]
    rfl

end Sys2Proof.Machine
end

section
/-! PROOF of the acceptance of a telegram (R10, R28, R30, R33, R36). -/

namespace Sys2Proof.Machine

/-! ## What the loop keeps while the blocks work -/

/-- The loop interface stands as `l` but for its transmit queue. -/
structure State.LoopIs (l : Lif) (s : State) : Prop where
  ring      : s.lif.ring = l.ring
  congested : s.lif.congested = l.congested
  loop      : s.lif.loop = l.loop
  quiet     : s.lif.quiet = l.quiet
  tail      : s.lif.tail = l.tail
  answer    : s.lif.answer = l.answer
  txSeq     : s.lif.txSeq = l.txSeq

theorem State.LoopIs.of_lif {l : Lif} {s t : State} (h : s.LoopIs l) (same : t.lif = s.lif) : t.LoopIs l := by
  obtain ⟨ring, congested, loop, quiet, tail, answer, txSeq⟩ := h
  refine ⟨?_, ?_, ?_, ?_, ?_, ?_, ?_⟩ <;> rw [same] <;> assumption

/-- What the blocks do on one another's word changes of the loop interface the transmit queue alone. -/
theorem State.keptLoop (l : Lif) : KeptFire (State.LoopIs l) where
  post h := h.of_lif rfl
  passDownOutcome h := h.of_lif (by simp)
  setLock h := h.of_lif rfl
  delLock h := h.of_lif rfl
  setActuator h := h.of_lif rfl
  delActuator h := h.of_lif rfl
  setOrder h := h.of_lif rfl
  delOrder h := h.of_lif rfl
  place h _ := { h with }
  swap h _ := { h with }
  mapOrigins h := { h with }
  flags h _ := h.of_lif rfl
  cleared h := h.of_lif rfl
  alert h := h.of_lif rfl
  setCartridge h := h.of_lif rfl
  delCartridge h := h.of_lif rfl
  party h := h.of_lif rfl
  setEngine {s e x} h _ := h.of_lif (by cases e <;> rfl)
  setClimate h := h.of_lif rfl
  setActive h := h.of_lif rfl
  fault h := h.of_lif rfl
  release h := h.of_lif rfl
  conditions h := h.of_lif rfl
  setFire h _ _ := h.of_lif rfl
  setNode h := h.of_lif rfl
  faultSilent h := h.of_lif rfl
  healthy h := h.of_lif rfl

/-! ## A node is heard from (R28, R30, R33) -/

section

variable {s : State} {a : Nat} {e : NodeEntry} {k : Byte}

/-- The node's entry after an acceptance: a DET_TROUBLE of a detector stops the timer alone, and else the node is OK with its
interval restarted (R28, R30). -/
def NodeEntry.accepted (e : NodeEntry) (k : Byte) : NodeEntry :=
  if e.cls = .detector ∧ k = 0x12#8 then { e with timer := none } else { e with sup := .ok, timer := intervalTimer e.interval }

theorem State.nodeAccepted_eq (entry : s.node a = some e) : s.nodeAccepted a k
    = if e.cls = .detector ∧ k = 0x12#8 then s.setNode a { e with timer := none } else s.heardFrom a e k := by
  unfold State.nodeAccepted
  rw [entry]
  rfl

theorem State.tellCommander_node (s : State) (a b : Nat) (c : NodeClass) (k : Byte) :
    (s.tellCommander a c k).node b = s.node b := by
  unfold State.node
  simp

/-- A node that commands no lock and no plant has no commander (R33). -/
theorem State.tellCommander_none (lock : e.cls ≠ .lock) (dry : e.cls ≠ .dehumidifier) (wet : e.cls ≠ .humidifier) :
    s.tellCommander a e.cls k = s := by
  unfold State.tellCommander
  split
  · rfl
  · split
    · rename_i cls
      exact absurd cls lock
    · rename_i cls
      exact absurd cls dry
    · rename_i cls
      exact absurd cls wet
    all_goals rfl

theorem State.tellCommander_trouble {c : NodeClass} (trouble : k = 0x12#8) : s.tellCommander a c k = s := if_pos trouble

theorem State.tellCommander_lock (other : k ≠ 0x12#8) : s.tellCommander a .lock k = s.lockHeard a := if_neg other

theorem State.heardFrom_ok (ok : e.sup = .ok) : s.heardFrom a e k
    = (s.setNode a { e with sup := .ok, timer := intervalTimer e.interval }).tellCommander a e.cls k := by
  unfold State.heardFrom
  dsimp only
  rw [if_pos ok]

theorem State.heardFrom_recovered (down : e.sup ≠ .ok) : s.heardFrom a e k
    = (s.changeSupervision a { e with sup := .ok, timer := intervalTimer e.interval } .recovered).tellCommander a e.cls k := by
  unfold State.heardFrom
  dsimp only
  rw [if_neg down]

theorem State.heardFrom_node_same :
    (s.heardFrom a e k).node a = some { e with sup := .ok, timer := intervalTimer e.interval } := by
  by_cases ok : e.sup = .ok
  · rw [State.heardFrom_ok ok, State.tellCommander_node, State.node_setNode_same]
  · rw [State.heardFrom_recovered ok, State.tellCommander_node, State.node_changeSupervision_same]

theorem State.heardFrom_node_other {b : Nat} (other : b ≠ a) : (s.heardFrom a e k).node b = s.node b := by
  by_cases ok : e.sup = .ok
  · rw [State.heardFrom_ok ok, State.tellCommander_node, State.node_setNode_other _ _ other]
  · rw [State.heardFrom_recovered ok, State.tellCommander_node, State.node_changeSupervision_other _ _ _ _ other]

theorem State.nodeAccepted_node_same (entry : s.node a = some e) :
    (s.nodeAccepted a k).node a = some (e.accepted k) := by
  rw [State.nodeAccepted_eq entry]
  unfold NodeEntry.accepted
  split
  · exact s.node_setNode_same a _
  · exact State.heardFrom_node_same

theorem State.nodeAccepted_node_other (entry : s.node a = some e) {b : Nat} (other : b ≠ a) :
    (s.nodeAccepted a k).node b = s.node b := by
  rw [State.nodeAccepted_eq entry]
  split
  · exact s.node_setNode_other _ other
  · exact State.heardFrom_node_other other

/-- A node that was OK and commands no lock and no plant: its entry alone changes. -/
theorem State.nodeAccepted_plain (entry : s.node a = some e) (ok : e.sup = .ok) (lock : e.cls ≠ .lock)
    (dry : e.cls ≠ .dehumidifier) (wet : e.cls ≠ .humidifier) : s.nodeAccepted a k = s.setNode a (e.accepted k) := by
  rw [State.nodeAccepted_eq entry]
  unfold NodeEntry.accepted
  split
  · rfl
  · rw [State.heardFrom_ok ok, State.tellCommander_none lock dry wet]

theorem State.nodeAccepted_recovered_ti (entry : s.node a = some e) (down : e.sup ≠ .ok) (lock : e.cls ≠ .lock)
    (dry : e.cls ≠ .dehumidifier) (wet : e.cls ≠ .humidifier)
    (calm : e.cls = .detector → k ≠ 0x12#8 ∧ (s.fire e.zone).state ≠ .preAlarm) :
    (s.nodeAccepted a k).ti = (s.post (.nodeState a e.cls e.zone .ok .recovered)).ti := by
  rw [State.nodeAccepted_eq entry, if_neg fun trouble => (calm trouble.1).1 trouble.2, State.heardFrom_recovered down,
    State.tellCommander_none lock dry wet]
  exact State.changeSupervision_ti (e := { e with sup := .ok, timer := intervalTimer e.interval })
    (fun detector => (calm detector).2) a .recovered

/-! ## A lock in LOCK_FAULT (R57) -/

theorem State.requestTx_room {r : TxRequest} (room : s.lif.txq.length < 24) : s.requestTx r = s.placeTx r := if_pos room

theorem State.sendLock_room {l : Lock} (record : s.lock a = some l) (room : s.lif.txq.length < 24) :
    s.sendLock a = (s.setLock a { l with sent := l.commanded, send := .inFlight }).placeTx (lockSetRequest a l.commanded) := by
  unfold State.sendLock
  rw [record]
  exact State.requestTx_room room

@[simp] theorem State.lock_setLock_same (s : State) (a : Nat) (l : Lock) : (s.setLock a l).lock a = some l :=
  Table.get_put_same _ _ _

theorem State.lock_setLock_other (s : State) {a b : Nat} (l : Lock) (other : b ≠ a) :
    (s.setLock a l).lock b = s.lock b := Table.get_put_other _ _ other

theorem State.lock_placeTx (s : State) (r : TxRequest) (a : Nat) : (s.placeTx r).lock a = s.lock a := rfl

theorem State.lockHeard_faulted {l : Lock} (record : s.lock a = some l) (fault : l.fault = true) (idle : l.send = .idle)
    (room : s.lif.txq.length < 24) :
    (s.lockHeard a).lock a = some { l with sent := l.commanded, send := .inFlight } := by
  unfold State.lockHeard
  rw [record]
  dsimp only
  rw [if_pos (by simp [fault, idle]), State.sendLock_room record room, State.lock_placeTx, State.lock_setLock_same]

theorem State.nodeAccepted_lock {l : Lock} (entry : s.node a = some e) (ok : e.sup = .ok) (cls : e.cls = .lock)
    (record : s.lock a = some l) (fault : l.fault = true) (idle : l.send = .idle) (room : s.lif.txq.length < 24) :
    (s.nodeAccepted a k).lock a
      = some (if k = 0x12#8 then l else { l with sent := l.commanded, send := .inFlight }) := by
  have lock : ¬ (e.cls = .detector ∧ k = 0x12#8) := by simp [cls]
  rw [State.nodeAccepted_eq entry, if_neg lock, State.heardFrom_ok ok]
  by_cases trouble : k = 0x12#8
  · rw [if_pos trouble, State.tellCommander_trouble trouble]
    exact record
  · rw [if_neg trouble, cls, State.tellCommander_lock trouble]
    exact State.lockHeard_faulted (s := s.setNode a _) record fault idle room

end

/-! ## Acceptance (R10, R36) -/

section

variable {s : State} {t : Telegram} {e : NodeEntry}

/-- The telegram at the ring's tail, the loop after it, and its sequence the node's last accepted (R7, R10). -/
def State.joinRing (s : State) (t : Telegram) (e : NodeEntry) : State :=
  (({ s with lif := { s.lif with ring := s.lif.ring ++ [ringItem t e] } } : State).setAnswer (slotAnswer t .ack)).setNode
    t.src.toNat { e with lastSeq := some t.seq }

theorem State.joinRing_node (s : State) (t : Telegram) (e : NodeEntry) :
    (s.joinRing t e).node t.src.toNat = some { e with lastSeq := some t.seq } := State.node_setNode_same _ _ _

theorem State.accept_silent (relay : e.relay = false) :
    s.accept t e = (s.joinRing t e).nodeAccepted t.src.toNat t.kind := if_neg (by simp [relay])

theorem State.accept_relayed (relay : e.relay = true) : s.accept t e
    = ((s.joinRing t e).nodeAccepted t.src.toNat t.kind).post
        (.relayed t.src.toNat t.kind t.seq (decide (t.dest.toNat = 127)) t.payload) := if_pos relay

/-- The loop after an acceptance (R7, R9, R10). -/
def Lif.joined (l : Lif) (t : Telegram) (e : NodeEntry) : Lif :=
  { l with
    ring := l.ring ++ [{ src := t.src.toNat, kind := t.kind, seq := t.seq, payload := t.payload,
                         unicast := decide (t.dest = 127#8), cls := e.cls }]
    loop := (if decide (t.dest = 127#8) then .answering else .quiet), quiet := 0, tail := false
    answer := (if decide (t.dest = 127#8) then some .ack else none) }

theorem State.joinRing_quiet (s : State) (t : Telegram) (e : NodeEntry) : (s.quietLoop 0).joinRing t e
    = ({ s with lif := s.lif.joined t e } : State).setNode t.src.toNat { e with lastSeq := some t.seq } := by
  unfold State.joinRing Lif.joined ringItem
  rw [slotAnswer_eq]
  simp only [dest_unicast_iff]
  by_cases unicast : t.dest = 127#8
  · simp only [unicast, if_true, decide_true]
    rfl
  · simp only [unicast, if_false, decide_false]
    rfl

end

/-- Settles O11: the acceptance (`State.accept`) on the quiet loop, its parts by NT's rules. -/
theorem acceptedTelegramJoinsTheRing : Obligations.AcceptedTelegramJoinsTheRing := by
  intro s tel e receiving short matched dest source entry new room a unicast ring lif
  let heard : NodeEntry := { e with lastSeq := some tel.seq }
  obtain ⟨base, joined⟩ : ∃ base, base = ({ s with lif := s.lif.joined tel e } : State).setNode a heard := ⟨_, rfl⟩
  have node : base.node a = some heard := by rw [joined, State.node_setNode_same]
  have others {b : Nat} (other : b ≠ a) : base.node b = s.node b := by
    rw [joined, State.node_setNode_other _ _ other]
    rfl
  have row : exec (.telegramReceived tel) s = .next ((s.quietLoop 0).accept tel e) := by
    rw [exec_telegramReceived_valid receiving short matched dest source,
      State.decideTelegram_new (s := s.quietLoop 0) entry new]
    exact congrArg Host.Outcome.next (if_pos room)
  obtain ⟨u, noted⟩ : ∃ u, u = base.nodeAccepted a tel.kind := ⟨_, rfl⟩
  have silent (relay : e.relay = false) : (s.quietLoop 0).accept tel e = u := by
    rw [State.accept_silent relay, State.joinRing_quiet, noted, joined]
  have relayed (relay : e.relay = true) :
      (s.quietLoop 0).accept tel e = u.post (.relayed a tel.kind tel.seq unicast tel.payload) := by
    rw [State.accept_relayed relay, State.joinRing_quiet, noted, joined]
    simp only [unicast, dest_unicast_iff]
    rfl
  obtain ⟨t, accepted, same⟩ : ∃ t, t = (s.quietLoop 0).accept tel e ∧ (t = u ∨ ∃ b, t = u.post b) := by
    cases relay : e.relay with
    | false => exact ⟨_, rfl, .inl (silent relay)⟩
    | true => exact ⟨_, rfl, .inr ⟨_, relayed relay⟩⟩
  have loop : t.LoopIs lif := by
    have k := State.keptLoop lif
    have start : base.LoopIs lif := by
      rw [joined]
      exact ⟨rfl, rfl, rfl, rfl, rfl, rfl, rfl⟩
    have after : u.LoopIs lif := noted ▸ k.nodeAccepted start
    rcases same with rfl | ⟨b, rfl⟩
    · exact after
    · exact k.post after
  have nt : t.nt = u.nt := by rcases same with rfl | ⟨b, rfl⟩ <;> rfl
  have la : t.la = u.la := by rcases same with rfl | ⟨b, rfl⟩ <;> rfl
  have frame : t.zt = s.zt ∧ t.cu = s.cu ∧ t.cs = s.cs := by
    rcases same with rfl | ⟨b, rfl⟩ <;> simp [noted, joined]
  have plain (ok : e.sup = .ok) (lock : e.cls ≠ .lock) (dry : e.cls ≠ .dehumidifier) (wet : e.cls ≠ .humidifier) :
      u = { s with lif := lif, nt := { s.nt with nodes := u.nt.nodes } } := by
    rw [noted, State.nodeAccepted_plain node ok lock dry wet, joined]
    rfl
  refine ⟨t, row.trans (congrArg Host.Outcome.next accepted.symm), loop.ring, loop.loop, loop.answer, loop.congested, ?_, ?_,
    frame.1, frame.2.1, frame.2.2, ?_, ?_, ?_⟩
  case refine_1 =>
    unfold State.node
    rw [nt, noted]
    exact State.nodeAccepted_node_same node
  case refine_2 =>
    intro b other
    unfold State.node
    rw [nt, noted]
    exact (State.nodeAccepted_node_other node other).trans (others other)
  case refine_3 =>
    intro ok lock dry wet
    rw [nt]
    exact ⟨fun relay => (accepted.trans (silent relay)).trans (plain ok lock dry wet),
      fun relay => (accepted.trans (relayed relay)).trans (congrArg (State.post · _) (plain ok lock dry wet))⟩
  case refine_4 =>
    intro down relay lock dry wet calm
    have fz : base.fz = s.fz := by rw [joined]; rfl
    rw [accepted, silent relay, noted, State.nodeAccepted_recovered_ti node down lock dry wet
      (fun detector => by unfold State.fire; rw [fz]; exact calm detector)]
    exact State.post_ti_congr (by rw [joined]; rfl) (by rw [joined]; rfl) _
  case refine_5 =>
    intro l ok cls record fault idle free
    unfold State.lock
    rw [la, noted]
    exact State.nodeAccepted_lock node ok cls (by rw [joined]; exact record) fault idle (by rw [joined]; exact free)

end Sys2Proof.Machine
end

section
/-! PROOFS of the loop's access and transmission (R7, R8, R17 to R19): which item is started, and the attempts and retries
that keep it. -/

namespace Sys2Proof.Machine

/-! ## The queue by arrival numbers -/

section

variable {pre post : List TxItem} {it : TxItem}

theorem map_arrival (alone : ∀ x ∈ pre ++ post, x.arrival ≠ it.arrival) (f : TxItem → TxItem) :
    (pre ++ it :: post).map (fun i => if i.arrival = it.arrival then f i else i) = pre ++ f it :: post := by
  have kept {l : List TxItem} (h : ∀ x ∈ l, x.arrival ≠ it.arrival) :
      l.map (fun i => if i.arrival = it.arrival then f i else i) = l := by
    refine (List.map_congr_left fun x hx => if_neg (h x hx)).trans (List.map_id' l)
  rw [List.map_append, List.map_cons, kept fun x hx => alone x (List.mem_append_left _ hx),
    kept fun x hx => alone x (List.mem_append_right _ hx), if_pos rfl]

theorem filter_arrival (alone : ∀ x ∈ pre ++ post, x.arrival ≠ it.arrival) :
    (pre ++ it :: post).filter (fun x => x.arrival ≠ it.arrival) = pre ++ post := by
  have kept {l : List TxItem} (h : ∀ x ∈ l, x.arrival ≠ it.arrival) : l.filter (fun x => x.arrival ≠ it.arrival) = l :=
    List.filter_eq_self.2 fun x hx => decide_eq_true (h x hx)
  rw [List.filter_append, List.filter_cons_of_neg (by simp), kept fun x hx => alone x (List.mem_append_left _ hx),
    kept fun x hx => alone x (List.mem_append_right _ hx)]

end

section

variable {s : State} {pre post : List TxItem} {it : TxItem}

theorem State.mapTx_eq (queue : s.lif.txq = pre ++ it :: post) (alone : ∀ x ∈ pre ++ post, x.arrival ≠ it.arrival)
    (f : TxItem → TxItem) : s.mapTx it.arrival f = { s with lif := { s.lif with txq := pre ++ f it :: post } } := by
  unfold State.mapTx
  rw [queue, map_arrival alone]

theorem State.removeTx_eq (queue : s.lif.txq = pre ++ it :: post) (alone : ∀ x ∈ pre ++ post, x.arrival ≠ it.arrival) :
    s.removeTx it.arrival = { s with lif := { s.lif with txq := pre ++ post } } := by
  unfold State.removeTx
  rw [queue, filter_arrival alone]

theorem State.onLoop_of_carries (h : s.carries pre it post) : s.onLoop = some it := by
  obtain ⟨queue, onLoop, before, -⟩ := h
  unfold State.onLoop
  rw [queue, List.find?_append, List.find?_eq_none.2 fun x hx => by simpa using before x hx,
    List.find?_cons_of_pos (by simp [onLoop])]
  rfl

end

/-! ## The item selected (R17) -/

section

variable {q pre post : List TxItem} {it : TxItem}

/-- The oldest READY item of a class. -/
def oldestReady (q : List TxItem) (c : TxClass) : Option TxItem := q.find? (fun it => it.eligible && it.cls = c)

theorem TxItem.eligible_iff (it : TxItem) : it.eligible = true ↔ it.state = .ready := by simp [TxItem.eligible]

theorem oldestReady_none {c : TxClass} (below : ∀ x ∈ q, x.state = .ready → x.cls.rank < c.rank) : oldestReady q c = none := by
  refine List.find?_eq_none.2 fun x hx found => ?_
  obtain ⟨ready, same⟩ := Bool.and_eq_true_iff.1 found
  have lower := below x hx (x.eligible_iff.1 ready)
  rw [of_decide_eq_true same] at lower
  exact Nat.lt_irrefl _ lower

theorem oldestReady_self (queue : q = pre ++ it :: post) (ready : it.state = .ready)
    (before : ∀ x ∈ pre, x.state = .ready → x.cls.rank < it.cls.rank) : oldestReady q it.cls = some it := by
  have none : oldestReady pre it.cls = none := oldestReady_none before
  have found : (it.eligible && decide (it.cls = it.cls)) = true := by simp [it.eligible_iff.2 ready]
  unfold oldestReady at none ⊢
  rw [queue, List.find?_append, none, Option.none_or]
  exact List.find?_cons_of_pos found

theorem selectTx_eq (q : List TxItem) : selectTx q = (oldestReady q .fire).orElse fun _ => (oldestReady q .lock).orElse
    fun _ => (oldestReady q .actuator).orElse fun _ => oldestReady q .display := rfl

theorem selectTx_oldest (queue : q = pre ++ it :: post) (ready : it.state = .ready)
    (before : ∀ x ∈ pre, x.state = .ready → x.cls.rank < it.cls.rank)
    (behind : ∀ x ∈ post, x.state = .ready → x.cls.rank ≤ it.cls.rank) : selectTx q = some it := by
  have self := oldestReady_self queue ready before
  have above {c : TxClass} (higher : it.cls.rank < c.rank) : oldestReady q c = none := by
    refine oldestReady_none fun x hx isReady => ?_
    rw [queue, List.mem_append, List.mem_cons] at hx
    rcases hx with early | rfl | late
    · exact (before x early isReady).trans higher
    · exact higher
    · exact (behind x late isReady).trans_lt higher
  rw [selectTx_eq]
  cases cls : it.cls <;> rw [cls] at self above
  case fire => rw [self, Option.orElse_some]
  case lock => rw [above (c := .fire) (by decide), self, Option.orElse_none, Option.orElse_some]
  case actuator =>
    rw [above (c := .fire) (by decide), above (c := .lock) (by decide), self, Option.orElse_none, Option.orElse_none,
      Option.orElse_some]
  case display =>
    rw [above (c := .fire) (by decide), above (c := .lock) (by decide), above (c := .actuator) (by decide), self,
      Option.orElse_none, Option.orElse_none, Option.orElse_none]

end

section

variable {s : State} {pre post : List TxItem} {it : TxItem}

theorem State.startItem_eq (queue : s.lif.txq = pre ++ it :: post) (alone : ∀ x ∈ pre ++ post, x.arrival ≠ it.arrival) :
    s.startItem it = { s with lif := { s.lif with
      txq := pre ++ { it with state := .onLoop, seq := some (it.seq.getD s.lif.txSeq) } :: post
      txSeq := (if it.seq.isSome then s.lif.txSeq else s.lif.txSeq + 1#8) } } := by
  unfold State.startItem
  cases seq : it.seq with
  | some q =>
    dsimp only
    rw [State.mapTx_eq queue alone, Option.getD_some, ← seq, seq]
    rfl
  | none =>
    dsimp only
    rw [State.mapTx_eq queue alone]
    rfl

theorem accessGap_eq (c : TxClass) : accessGap c = if c = .fire then 4 else 10 := by cases c <;> rfl

end

/-- Settles O14: the item that `selectTx` finds is started once its gap has passed. -/
theorem transmitStartTakesTheOldestOfTheHighestClass : Obligations.TransmitStartTakesTheOldestOfTheHighestClass := by
  intro s q pre post it quiet queue ready before behind alone gap
  have ended : s.lif.slotOver = s.lif := Lif.slotOver_quiet quiet
  refine congrArg Host.Outcome.next ((if_pos (by rw [ended, quiet])).trans ?_)
  rw [selectTx_oldest queue ready before behind]
  refine (if_pos (by rw [accessGap_eq]; exact gap)).trans ?_
  dsimp only
  rw [ended, State.startItem_eq queue alone]

/-! ## Attempts that do not count (R7, R8) -/

section

variable {s : State} {pre post : List TxItem} {it : TxItem}

theorem State.backToReady_eq (h : s.carries pre it post) : s.backToReady it
    = { s with lif := { s.lif with txq := pre ++ { it with state := .ready } :: post } } :=
  State.mapTx_eq h.1 h.2.2.2 _

/-- Settles O15: the item on the loop is the one carried, and each row says what becomes of it. -/
theorem attemptsThatDoNotCount : Obligations.AttemptsThatDoNotCount := by
  intro s pre post it sending carried
  have onLoop := State.onLoop_of_carries carried
  refine ⟨?_, ?_, fun unicast => ?_⟩ <;> refine congrArg Host.Outcome.next ((if_pos sending).trans ?_) <;> rw [onLoop] <;>
    dsimp only
  · rw [State.backToReady_eq carried]
    rfl
  · rw [State.backToReady_eq carried]
    rfl
  · exact if_neg unicast

/-! ## The acknowledge slot (R18) -/

theorem exec_acknowledgeSlotAnswer_carried (awaiting : s.lif.loop = .awaiting) (h : s.carries pre it post) (b : Byte) :
    exec (.acknowledgeSlotAnswer b) s = .next
      (if b = 0x4B#8 then (s.quietLoop 0).departTx it .delivered
        else if b = 0xB4#8 then (s.quietLoop 0).busySlot it else (s.quietLoop 0).emptySlot it) := by
  refine congrArg Host.Outcome.next ((if_pos awaiting).trans ?_)
  rw [State.onLoop_of_carries h]

theorem exec_acknowledgeSlotExpiry_carried (awaiting : s.lif.loop = .awaiting) (h : s.carries pre it post) :
    exec .acknowledgeSlotExpiry s = .next ((s.quietLoop 2).emptySlot it) := by
  refine congrArg Host.Outcome.next ((if_pos awaiting).trans ?_)
  rw [State.onLoop_of_carries h]

theorem State.emptySlot_retry (h : s.carries pre it post) (few : it.emptyRetries < 2) (q : Nat) :
    (s.quietLoop q).emptySlot it = { s with lif := { s.lif with
      loop := .quiet, quiet := q, tail := false
      txq := pre ++ { it with emptyRetries := it.emptyRetries + 1, state := .ready } :: post } } :=
  (if_pos few).trans (State.mapTx_eq (s := s.quietLoop q) h.1 h.2.2.2 _)

theorem State.busySlot_retry (h : s.carries pre it post) (few : it.busyRetries < 5) (q : Nat) :
    (s.quietLoop q).busySlot it = { s with lif := { s.lif with
      loop := .quiet, quiet := q, tail := false
      txq := pre ++ { it with busyRetries := it.busyRetries + 1, state := .waiting 20 } :: post } } :=
  (if_pos few).trans (State.mapTx_eq (s := s.quietLoop q) h.1 h.2.2.2 _)

end

/-- Settles O16: a retry changes the item in its place (`State.mapTx_eq`), and so does the end of its delay. -/
theorem retriesKeepTheItemInItsPlace : Obligations.RetriesKeepTheItemInItsPlace := by
  refine ⟨?_, ?_⟩
  · intro s pre post it b awaiting carried left
    refine ⟨fun few => ?_, fun few notAck notBusy => ?_, fun few => ?_⟩
    · rw [exec_acknowledgeSlotAnswer_carried awaiting carried, if_neg (by decide), if_pos rfl, State.busySlot_retry carried few]
    · rw [exec_acknowledgeSlotAnswer_carried awaiting carried, if_neg notAck, if_neg notBusy, State.emptySlot_retry carried few]
    · rw [exec_acknowledgeSlotExpiry_carried awaiting carried, State.emptySlot_retry carried few]
  · intro s pre post it queue alone
    have row : exec (.busyRetryDelayExpiry it.arrival) s = .next { s with lif := { s.lif with
        txq := pre ++ (if it.state = .waiting 0 then { it with state := .ready } else it) :: post } } :=
      congrArg Host.Outcome.next (State.mapTx_eq queue alone _)
    rw [row]
    refine ⟨fun done => by rw [if_pos done], fun running => ?_⟩
    rw [if_neg running, ← queue]

end Sys2Proof.Machine
end

section
/-! PROOFS of the departure of an item (R18 to R22, R31, R40, R57, R110, R155) and of the places of the queue (R16, R21, R22,
R111, R120). -/

namespace Sys2Proof.Machine

/-! ## The offer of a freed place (R22) -/

section

variable {s : State}

theorem State.offerPlace_alert (pending : s.fz.pendingAlert = true) : s.offerPlace
    = ({ s with fz := { s.fz with pendingAlert := false } } : State).placeTx (alertRequest s.fz.fireActive) := by
  unfold State.offerPlace State.offerFire
  rw [if_pos pending]
  rfl

theorem State.offerFire_release {z a : Nat} (quiet : s.fz.pendingAlert = false) (zone : z < 16)
    (pending : (s.fire z).pendingRelease = true) (lowest : ∀ y < z, (s.fire y).pendingRelease = false)
    (node : s.suppressionNode z = some a) : s.offerFire
      = ((s.setFire z { s.fire z with pendingRelease := false }).placeTx (releaseRequest z a), true) := by
  have found : zoneNumbers.find? (fun z => (s.fire z).pendingRelease) = some z :=
    List.find?_range_eq_some.2 ⟨pending, List.mem_range.2 zone, fun y below => by simp [lowest y below]⟩
  have same : (s.setFire z { s.fire z with pendingRelease := false }).suppressionNode z = some a := node
  unfold State.offerFire
  rw [if_neg (by simp [quiet]), found]
  dsimp only
  rw [same]

/-- Without pending fire telegrams FZ takes no place. -/
theorem State.offerFire_none (quiet : s.fz.pendingAlert = false) (none : ∀ z < 16, (s.fire z).pendingRelease = false) :
    s.offerFire = (s, false) := by
  have absent : zoneNumbers.find? (fun z => (s.fire z).pendingRelease) = Option.none :=
    List.find?_eq_none.2 fun z hz => by simp [none z (List.mem_range.1 hz)]
  unfold State.offerFire
  rw [if_neg (by simp [quiet]), absent]

theorem State.offerPlace_lock (quiet : s.fz.pendingAlert = false) (none : ∀ z < 16, (s.fire z).pendingRelease = false) :
    s.offerPlace = s.offerLock := by
  unfold State.offerPlace
  rw [State.offerFire_none quiet none]
  rfl

theorem State.offerPlace_nothing (h : s.nothingPending) : s.offerPlace = s := by
  obtain ⟨quiet, none, idle⟩ := h
  have absent : Table.findKey s.la.locks (fun _ l => l.send = .pending) = Option.none := by
    unfold Table.findKey
    rw [List.find?_eq_none.2 fun p hp => by simpa using idle p hp]
    rfl
  rw [State.offerPlace_lock quiet none]
  unfold State.offerLock
  rw [absent]

/-- The lowest pending lock of a table is found, and its record there. -/
theorem Table.findKey_first {α : Type} {lower higher : Table α} {a : Nat} {l : α} {p : Nat → α → Bool}
    (below : ∀ q ∈ lower, p q.1 q.2 = false ∧ q.1 ≠ a) (here : p a l = true) :
    Table.findKey (lower ++ (a, l) :: higher) p = some a ∧ Table.get (lower ++ (a, l) :: higher) a = some l := by
  induction lower with
  | nil =>
    exact ⟨by simp [Table.findKey, here], if_pos rfl⟩
  | cons q lower ih =>
    obtain ⟨⟨passes, other⟩, rest⟩ := List.forall_mem_cons.1 below
    obtain ⟨key, entry⟩ := ih rest
    refine ⟨?_, (if_neg other).trans entry⟩
    unfold Table.findKey at key ⊢
    rw [List.cons_append, List.find?_cons_of_neg (by simp [passes]), key]

theorem State.offerLock_first {a : Nat} {l : Lock} {lower higher : Table Lock} (locks : s.la.locks = lower ++ (a, l) :: higher)
    (below : ∀ p ∈ lower, p.2.send ≠ .pending ∧ p.1 ≠ a) (pending : l.send = .pending) : s.offerLock
      = (s.setLock a { l with sent := l.commanded, send := .inFlight }).placeTx (lockSetRequest a l.commanded) := by
  obtain ⟨key, entry⟩ := Table.findKey_first (lower := lower) (higher := higher) (a := a) (l := l)
    (p := fun _ l => decide (l.send = .pending))
    (fun q hq => ⟨decide_eq_false (below q hq).1, (below q hq).2⟩) (decide_eq_true pending)
  rw [← locks] at key entry
  have record : s.lock a = some l := entry
  unfold State.offerLock
  rw [key]
  dsimp only
  rw [record]

end

/-! ## Departures (R18 to R20, R22) -/

section

variable {s : State} {pre post : List TxItem} {it : TxItem}

/-- The loop QUIET, its last byte `q` byte-times ago, and the queue `l` (R7). -/
def State.loopQuiet (s : State) (q : Nat) (l : List TxItem) : State :=
  { s with lif := { s.lif with loop := .quiet, quiet := q, tail := false, txq := l } }

theorem State.departTx_carried (h : s.carries pre it post) (q : Nat) (o : TxOutcome) : (s.quietLoop q).departTx it o
    = (if o = .noAnswer then (s.loopQuiet q (pre ++ post)).offerPlace.nodeNoAnswer it.dest
        else (s.loopQuiet q (pre ++ post)).offerPlace).handOutcome it.origin it.dest o := by
  unfold State.departTx
  rw [State.removeTx_eq (s := s.quietLoop q) h.1 h.2.2.2]
  rfl

/-- An item that leaves with another outcome than NO_ANSWER, nothing waiting for its place. -/
theorem State.departTx_free (h : s.carries pre it post) (nothing : s.nothingPending) (q : Nat) {o : TxOutcome}
    (answered : o ≠ .noAnswer) :
    (s.quietLoop q).departTx it o = (s.loopQuiet q (pre ++ post)).handOutcome it.origin it.dest o := by
  rw [State.departTx_carried h, if_neg answered, State.offerPlace_nothing (s := s.loopQuiet q (pre ++ post)) nothing]

theorem State.departTx_noAnswer (h : s.carries pre it post) (nothing : s.nothingPending) (q : Nat) :
    (s.quietLoop q).departTx it .noAnswer
      = ((s.loopQuiet q (pre ++ post)).nodeNoAnswer it.dest).handOutcome it.origin it.dest .noAnswer := by
  rw [State.departTx_carried h, if_pos rfl, State.offerPlace_nothing (s := s.loopQuiet q (pre ++ post)) nothing]

theorem State.busySlot_last (many : 5 ≤ it.busyRetries) : s.busySlot it = s.departTx it .refusedByNode :=
  if_neg (Nat.not_lt.2 many)

theorem State.emptySlot_last (many : 2 ≤ it.emptyRetries) : s.emptySlot it = s.departTx it .noAnswer :=
  if_neg (Nat.not_lt.2 many)

theorem exec_slotAck_carried (awaiting : s.lif.loop = .awaiting) (h : s.carries pre it post) :
    exec (.acknowledgeSlotAnswer 0x4B#8) s = .next ((s.quietLoop 0).departTx it .delivered) := by
  rw [exec_acknowledgeSlotAnswer_carried awaiting h, if_pos rfl]

theorem exec_slotBusy_last (awaiting : s.lif.loop = .awaiting) (h : s.carries pre it post) (many : 5 ≤ it.busyRetries) :
    exec (.acknowledgeSlotAnswer 0xB4#8) s = .next ((s.quietLoop 0).departTx it .refusedByNode) := by
  rw [exec_acknowledgeSlotAnswer_carried awaiting h, if_neg (by decide), if_pos rfl, State.busySlot_last many]

theorem exec_slotExpiry_last (awaiting : s.lif.loop = .awaiting) (h : s.carries pre it post) (many : 2 ≤ it.emptyRetries) :
    exec .acknowledgeSlotExpiry s = .next ((s.quietLoop 2).departTx it .noAnswer) := by
  rw [exec_acknowledgeSlotExpiry_carried awaiting h, State.emptySlot_last many]

theorem exec_broadcastSent_carried (sending : s.lif.loop = .sending) (h : s.carries pre it post) (broadcast : it.dest = 0) :
    exec .broadcastSent s = .next ((s.quietLoop 0).departTx it .delivered) := by
  refine congrArg Host.Outcome.next ((if_pos sending).trans ?_)
  rw [State.onLoop_of_carries h]
  exact if_pos broadcast

/-! ## NO_ANSWER (R31) -/

section

variable {a : Nat} {e : NodeEntry}

theorem State.nodeNoAnswer_eq (entry : s.node a = some e) : s.nodeNoAnswer a
    = if e.sup = .silent then s else s.changeSupervision a { e with sup := .silent, timer := none } .noAnswer := by
  unfold State.nodeNoAnswer
  rw [entry]

theorem State.nodeNoAnswer_silent (silent : ∀ e, s.node a = some e → e.sup = .silent) : s.nodeNoAnswer a = s := by
  cases entry : s.node a with
  | none =>
    unfold State.nodeNoAnswer
    rw [entry]
  | some e => rw [State.nodeNoAnswer_eq entry, if_pos (silent e entry)]

theorem State.nodeNoAnswer_node_same (entry : s.node a = some e) : (s.nodeNoAnswer a).node a
    = some (if e.sup = .silent then e else { e with sup := .silent, timer := none }) := by
  rw [State.nodeNoAnswer_eq entry]
  split
  · exact entry
  · exact State.node_changeSupervision_same _ _ _ _

theorem State.nodeNoAnswer_node_other (entry : s.node a = some e) {b : Nat} (other : b ≠ a) :
    (s.nodeNoAnswer a).node b = s.node b := by
  rw [State.nodeNoAnswer_eq entry]
  split
  · rfl
  · exact State.node_changeSupervision_other _ _ _ _ other

end

end

/-! ## An item that has left does not come back (R16) -/

/-- No item has the arrival number, and none will. -/
def State.Departed (n : Nat) (s : State) : Prop := (∀ x ∈ s.lif.txq, x.arrival ≠ n) ∧ n < s.lif.txArrivals

theorem State.Departed.placed {n : Nat} {s : State} (h : s.Departed n) (r : TxRequest) : (s.placeTx r).Departed n := by
  refine ⟨fun x hx => ?_, h.2.trans (Nat.lt_succ_self _)⟩
  rcases List.mem_append.1 hx with old | new
  · exact h.1 x old
  · rw [List.mem_singleton.1 new]
    exact Nat.ne_of_gt h.2

theorem State.Departed.of_lif {n : Nat} {s t : State} (h : s.Departed n) (same : t.lif = s.lif) : t.Departed n := by
  unfold State.Departed
  rw [same]
  exact h

theorem State.keptDeparted (n : Nat) : KeptFire (State.Departed n) where
  post h := h
  passDownOutcome h := h.of_lif (by simp)
  setLock h := h
  delLock h := h
  setActuator h := h
  delActuator h := h
  setOrder h := h
  delOrder h := h
  place h _ := h.placed _
  swap {s v r} h _ := State.Departed.placed (s := s.removeTx v.arrival) ⟨fun x hx => h.1 x (List.mem_filter.1 hx).1, h.2⟩ r
  mapOrigins {s f} h := by
    refine ⟨fun x hx => ?_, h.2⟩
    obtain ⟨y, old, rfl⟩ := List.mem_map.1 hx
    exact h.1 y old
  flags h _ := h
  cleared h := h
  alert h := h
  setCartridge h := h
  delCartridge h := h
  party h := h
  setEngine {s e x} h _ := h.of_lif (by cases e <;> rfl)
  setClimate h := h
  setActive h := h
  fault h := h
  release h := h
  conditions h := h
  setFire h _ _ := h
  setNode h := h
  faultSilent h := h
  healthy h := h

theorem State.arrivalsRising_below {s : State} (rising : s.arrivalsRising = true) {it : TxItem} (mem : it ∈ s.lif.txq) :
    it.arrival < s.lif.txArrivals :=
  of_decide_eq_true (List.all_eq_true.1 (Bool.and_eq_true_iff.1 rising).2 it mem)

theorem State.placeTx_lif_congr {s t : State} (lif : t.lif = s.lif) (r : TxRequest) :
    (t.placeTx r).lif = (s.placeTx r).lif := by
  unfold State.placeTx
  rw [lif]

/-! ## What the originators do with an outcome (R20) -/

section

variable {s : State} {a : Nat} {l : Lock}

theorem State.lockDelivered_eq (record : s.lock a = some l) : s.lockDelivered a
    = let u := if l.fault then (s.setLock a { l with fault := false, send := .idle }).post (lockFaultNotice a l .cleared)
        else s.setLock a { l with fault := false, send := .idle }
      if l.commanded = l.sent then u else u.sendLock a := by
  unfold State.lockDelivered
  rw [record]

/-- The state after a delivery, before a newer commanded state is sent (R57). -/
theorem State.lockDelivered_cleared (s : State) (a : Nat) (l : Lock) : ∃ u : State,
    u = (if l.fault then (s.setLock a { l with fault := false, send := .idle }).post (lockFaultNotice a l .cleared)
      else s.setLock a { l with fault := false, send := .idle })
    ∧ u.lock a = some { l with fault := false, send := .idle } ∧ u.lif = s.lif := by
  refine ⟨_, rfl, ?_, ?_⟩
  · split <;> exact s.lock_setLock_same a _
  · split <;> rfl

theorem State.lockFailed_eq (record : s.lock a = some l) (r : LockFaultReason) : s.lockFailed a r
    = if l.fault then s.setLock a { l with fault := true, send := .idle }
      else (s.setLock a { l with fault := true, send := .idle }).post (lockFaultNotice a l r) := by
  unfold State.lockFailed
  rw [record]

theorem State.lockDropped_eq (record : s.lock a = some l) :
    s.lockDropped a true = s.setLock a { l with send := .pending } := by
  unfold State.lockDropped
  rw [record]

variable {n : Nat} {o : Order} {c : Cartridge}

theorem State.pickDelivered_eq (order : s.order n = some o) : s.pickDelivered n false a
    = if o.state = .released then s.setOrder { o with pick := .shown a }
      else (s.setOrder { o with pick := .notSent }).requestTx (withdrawRequest a n) := by
  unfold State.pickDelivered
  rw [order]
  rfl

theorem State.pickFailed_eq (order : s.order n = some o) (record : s.cartridge o.index = some c) (out : TxOutcome) :
    s.pickFailed n false a out
      = if o.state = .released then (s.setOrder { o with pick := .undelivered }).post (.pickUndelivered n c.label a out)
        else s.setOrder { o with pick := .notSent } := by
  unfold State.pickFailed
  rw [order]
  dsimp only
  rw [record]
  rfl

theorem State.pickOutcome_failed {out : TxOutcome} (failed : out = .refusedByNode ∨ out = .noAnswer) (d : Bool) :
    s.pickOutcome n d a out = s.pickFailed n d a out := by
  rcases failed with rfl | rfl <;> rfl

theorem State.passDownOutcome_held {d : Directive} (hand : s.ti.inHand = some (.passDown d)) (out : TxOutcome) :
    s.passDownOutcome out = s.dropHand.conclude d .ok (.outcome out) := by
  unfold State.passDownOutcome
  rw [hand]

end

/-! ## The departures settled -/

section

variable {s : State} {pre post : List TxItem} {it : TxItem} {e : NodeEntry}

/-- A third empty slot: the item leaves, its node is SILENT, and its originator is told (R18, R31, R32). -/
theorem thirdEmptySlot (awaiting : s.lif.loop = .awaiting) (carried : s.carries pre it post)
    (rising : s.arrivalsRising = true) (many : 2 ≤ it.emptyRetries) (entry : s.node it.dest = some e)
    (nothing : s.nothingPending) : ∃ t, exec .acknowledgeSlotExpiry s = .next t ∧ t.lif.loop = .quiet
      ∧ t.node it.dest = some (if e.sup = .silent then e else { e with sup := .silent, timer := none })
      ∧ (∀ a, a ≠ it.dest → t.node a = s.node a) ∧ t.zt = s.zt ∧ t.cu = s.cu ∧ t.cs = s.cs
      ∧ (∀ x ∈ t.lif.txq, x.arrival ≠ it.arrival)
      ∧ (∀ h, it.origin = .result h → e.sup ≠ .silent → (e.cls = .detector → (s.fire e.zone).state ≠ .preAlarm) →
          t.ti = (s.post (.nodeState it.dest e.cls e.zone .silent .noAnswer)).ti) := by
  obtain ⟨left, freed⟩ : ∃ left, left = s.loopQuiet 2 (pre ++ post) := ⟨_, rfl⟩
  have row : exec .acknowledgeSlotExpiry s
      = .next ((left.nodeNoAnswer it.dest).handOutcome it.origin it.dest .noAnswer) := by
    rw [exec_slotExpiry_last awaiting carried many, State.departTx_noAnswer carried nothing, freed]
  have node : left.node it.dest = some e := by
    rw [freed]
    exact entry
  have told (b : Nat) : ((left.nodeNoAnswer it.dest).handOutcome it.origin it.dest .noAnswer).node b
      = (left.nodeNoAnswer it.dest).node b := by
    unfold State.node
    simp
  refine ⟨_, row, ?_, ?_, ?_, ?_, ?_, ?_, ?_, ?_⟩
  case refine_1 =>
    have k := State.keptLoop left.lif
    have start : left.LoopIs left.lif := ⟨rfl, rfl, rfl, rfl, rfl, rfl, rfl⟩
    refine (k.toKeptSent.handOutcome (k.nodeNoAnswer start)).loop.trans ?_
    rw [freed]
    rfl
  case refine_2 => rw [told, State.nodeNoAnswer_node_same node]
  case refine_3 =>
    intro a other
    rw [told, State.nodeNoAnswer_node_other node other, freed]
    rfl
  case refine_7 =>
    have k := State.keptDeparted it.arrival
    have gone : left.Departed it.arrival := by
      rw [freed]
      refine ⟨carried.2.2.2, State.arrivalsRising_below rising ?_⟩
      rw [carried.1]
      exact List.mem_append_right _ List.mem_cons_self
    exact (k.toKeptSent.handOutcome (k.nodeNoAnswer gone)).1
  case refine_8 =>
    intro h origin heard calm
    have silenced := State.changeSupervision_ti (s := left) (e := { e with sup := .silent, timer := none })
      (fun detector => by rw [freed]; exact calm detector) it.dest .noAnswer
    rw [origin, State.nodeNoAnswer_eq node, if_neg heard]
    exact silenced.trans (State.post_ti_congr (by rw [freed]; rfl) (by rw [freed]; rfl) _)
  all_goals
    simp [freed, State.loopQuiet]

/-- LA's part of the outcomes (R57). -/
theorem lockOutcomes (record : s.lock a = some l) (o : TxOutcome) :
    let after := s.handOutcome (.lockSet a true) a o
    let why : LockFaultReason := if o = .refusedByNode then .refused else .noAnswer
    let failed := s.setLock a { l with fault := true, send := .idle }
    (o = .delivered → l.commanded = l.sent → l.fault = false → after = s.setLock a { l with send := .idle })
      ∧ (o = .delivered → l.commanded = l.sent → l.fault = true →
          after = (s.setLock a { l with fault := false, send := .idle }).post (.lockFault a l.commanded l.claims .cleared))
      ∧ (o = .delivered → l.commanded ≠ l.sent → s.lif.txq.length < 24 →
          after.lock a = some { l with fault := false, sent := l.commanded, send := .inFlight }
            ∧ after.lif = (s.placeTx { cls := .lock, dest := a, kind := 0x90#8, payload := lockSetPayload l.commanded,
                                       origin := .lockSet a true }).lif)
      ∧ (o = .refusedByNode ∨ o = .noAnswer →
          after = if l.fault then failed else failed.post (.lockFault a l.commanded l.claims why))
      ∧ (o = .dropped → after = s.setLock a { l with send := .pending })
      ∧ s.handOutcome (.lockSet a false) a o = s := by
  intro after why failed
  have delivered : s.handOutcome (.lockSet a true) a .delivered = s.lockDelivered a := rfl
  refine ⟨?_, ?_, ?_, ?_, ?_, rfl⟩
  · rintro rfl stands clear
    refine (delivered.trans (State.lockDelivered_eq record)).trans ?_
    dsimp only
    rw [if_pos stands, if_neg (by simp [clear]), ← clear]
  · rintro rfl stands fault
    refine (delivered.trans (State.lockDelivered_eq record)).trans ?_
    dsimp only
    rw [if_pos stands, if_pos fault]
    rfl
  · rintro rfl newer room
    obtain ⟨u, cleared, idle, lif⟩ := s.lockDelivered_cleared a l
    have sent : after = u.sendLock a := by
      refine (delivered.trans (State.lockDelivered_eq record)).trans ?_
      dsimp only
      rw [if_neg newer, cleared]
    rw [sent, State.sendLock_room idle (by rw [lif]; exact room)]
    exact ⟨State.lock_setLock_same _ _ _, State.placeTx_lif_congr (s := s) (t := u.setLock a _) lif _⟩
  · rintro (rfl | rfl)
    · exact State.lockFailed_eq record .refused
    · exact State.lockFailed_eq record .noAnswer
  · rintro rfl
    exact State.lockDropped_eq record

end

/-- Settles O17: the item leaves (`State.departTx_free`, `thirdEmptySlot`), and each originator acts on the outcome. -/
theorem endedItemsLeaveTheQueue : Obligations.EndedItemsLeaveTheQueue := by
  refine ⟨?_, fun s pre post it e => thirdEmptySlot, ?_, fun s a l o record => lockOutcomes record o, ?_, ?_, ?_⟩
  · intro s pre post it h carried nothing left
    have free {o : TxOutcome} (answered : o ≠ .noAnswer) (silent : (left.handOutcome it.origin it.dest o) = left) :
        (s.quietLoop 0).departTx it o = left := (State.departTx_free carried nothing 0 answered).trans silent
    refine ⟨fun awaiting result => ?_, fun awaiting result many => ?_, fun sending broadcast alert => ?_⟩
    · rw [exec_slotAck_carried awaiting carried, free (by decide) (by rw [result]; rfl)]
    · rw [exec_slotBusy_last awaiting carried many, free (by decide) (by rw [result]; rfl)]
    · rw [exec_broadcastSent_carried sending carried broadcast, free (by decide) (by rw [alert]; rfl)]
  · intro s pre post it awaiting carried nothing left
    refine ⟨?_, fun many => ?_, fun many silent => ?_⟩
    · rw [exec_slotAck_carried awaiting carried, State.departTx_free carried nothing 0 (by decide)]
      rfl
    · rw [exec_slotBusy_last awaiting carried many, State.departTx_free carried nothing 0 (by decide)]
      rfl
    · rw [exec_slotExpiry_last awaiting carried many, State.departTx_noAnswer carried nothing,
        State.nodeNoAnswer_silent (s := s.loopQuiet 2 (pre ++ post)) silent]
      rfl
  · intro s z a o
    refine ⟨rfl, ?_, rfl⟩
    rintro (rfl | rfl) <;> rfl
  · intro s n a r c o order record withdraw
    refine ⟨fun released => ?_, fun other room => ?_, fun released failed => ?_, fun other failed => ?_, fun room => ?_,
      fun failed => ?_⟩
    · exact (State.pickDelivered_eq order).trans (if_pos released)
    · exact ((State.pickDelivered_eq order).trans (if_neg other)).trans (State.requestTx_room room)
    · exact ((State.pickOutcome_failed failed false).trans (State.pickFailed_eq order record o)).trans (if_pos released)
    · exact ((State.pickOutcome_failed failed false).trans (State.pickFailed_eq order record o)).trans (if_neg other)
    · exact State.requestTx_room room
    · exact State.pickOutcome_failed failed true
  · intro s d a o hand
    exact State.passDownOutcome_held hand o

/-! ## A full queue (R21) -/

/-- The newest candidate of a class number for a telegram of class `c`. -/
def newestOf (q : List TxItem) (c : TxClass) (r : Nat) : Option TxItem :=
  ((q.filter (evictable c)).filter (fun it => it.cls.rank = r)).getLast?

theorem evictee_eq (q : List TxItem) (c : TxClass) :
    evictee q c = (newestOf q c 0).orElse fun _ => (newestOf q c 1).orElse fun _ => newestOf q c 2 := rfl

section

variable {q pre post : List TxItem} {v : TxItem} {c : TxClass}

theorem evictable_iff (it : TxItem) : evictable c it = true ↔ it.cls.rank < c.rank ∧ it.state ≠ .onLoop := by
  simp [evictable]

theorem newestOf_none {r : Nat} (none : ∀ x ∈ q, x.state ≠ .onLoop → x.cls.rank ≠ r) : newestOf q c r = Option.none := by
  have empty : (q.filter (evictable c)).filter (fun it => it.cls.rank = r) = [] := by
    refine List.filter_eq_nil_iff.2 fun x hx => ?_
    obtain ⟨mem, candidate⟩ := List.mem_filter.1 hx
    simpa using none x mem ((evictable_iff x).1 candidate).2
  unfold newestOf
  rw [empty]
  rfl

theorem newestOf_self (queue : q = pre ++ v :: post) (candidate : evictable c v = true)
    (behind : ∀ x ∈ post, x.state ≠ .onLoop → x.cls.rank ≠ v.cls.rank) : newestOf q c v.cls.rank = some v := by
  have empty : (post.filter (evictable c)).filter (fun it => it.cls.rank = v.cls.rank) = [] := by
    refine List.filter_eq_nil_iff.2 fun x hx => ?_
    obtain ⟨mem, found⟩ := List.mem_filter.1 hx
    simpa using behind x mem ((evictable_iff x).1 found).2
  unfold newestOf
  rw [queue, List.filter_append, List.filter_append, List.filter_cons_of_pos candidate,
    List.filter_cons_of_pos (by simp), empty, List.getLast?_concat]

/-- The newest of the lowest class among the candidates gives way (R21). -/
theorem evictee_newest (queue : q = pre ++ v :: post) (waits : v.state ≠ .onLoop) (lower : v.cls.rank < c.rank)
    (behind : ∀ x ∈ post, x.state ≠ .onLoop → v.cls.rank < x.cls.rank)
    (before : ∀ x ∈ pre, x.state ≠ .onLoop → v.cls.rank ≤ x.cls.rank) : evictee q c = some v := by
  have self := newestOf_self queue ((evictable_iff v).2 ⟨lower, waits⟩) fun x hx free => Nat.ne_of_gt (behind x hx free)
  have below {r : Nat} (less : r < v.cls.rank) : newestOf q c r = none := by
    refine newestOf_none fun x hx free => Nat.ne_of_gt ?_
    rw [queue, List.mem_append, List.mem_cons] at hx
    rcases hx with early | rfl | late
    · exact less.trans_le (before x early free)
    · exact less
    · exact less.trans (behind x late free)
  have top : c.rank ≤ 3 := by cases c <;> decide
  rw [evictee_eq]
  obtain zero | one | two : v.cls.rank = 0 ∨ v.cls.rank = 1 ∨ v.cls.rank = 2 := by omega
  · rw [zero] at self
    rw [self, Option.orElse_some]
  · rw [one] at self below
    rw [below (by decide), self, Option.orElse_none, Option.orElse_some]
  · rw [two] at self below
    rw [below (by decide), below (by decide), self, Option.orElse_none, Option.orElse_none]

end

section

variable {s : State} {r : TxRequest}

theorem State.requestTx_full (full : 24 ≤ s.lif.txq.length) : s.requestTx r = match evictee s.lif.txq r.cls with
    | some v => ((s.removeTx v.arrival).dropped v.origin).placeTx r
    | none => s.dropped r.origin := (if_neg (Nat.not_lt.2 full)).trans rfl

theorem State.requestTx_display (full : 24 ≤ s.lif.txq.length) (cls : r.cls = .display) :
    s.requestTx r = s.dropped r.origin := by
  rw [State.requestTx_full full, cls, evictee_display]

theorem State.requestTx_evicts {v : TxItem} (full : 24 ≤ s.lif.txq.length) (found : evictee s.lif.txq r.cls = some v) :
    s.requestTx r = ((s.removeTx v.arrival).dropped v.origin).placeTx r := by
  rw [State.requestTx_full full, found]

end

/-- Settles O18: a freed place by `State.offerPlace`, a request by `State.requestTx`. -/
theorem queuePlacesAreGivenByClass : Obligations.QueuePlacesAreGivenByClass := by
  refine ⟨?_, ?_⟩
  · intro s pre post it h awaiting carried result left
    have row : exec (.acknowledgeSlotAnswer 0x4B#8) s = .next left.offerPlace := by
      rw [exec_slotAck_carried awaiting carried, State.departTx_carried carried, if_neg (by decide), result]
      rfl
    refine ⟨fun alert => ?_, fun z a quiet zone release lowest node => ?_, fun a l lower higher quiet none locks below pending => ?_⟩
    · exact row.trans (congrArg Host.Outcome.next (State.offerPlace_alert (s := left) alert))
    · rw [row]
      unfold State.offerPlace
      rw [State.offerFire_release (s := left) quiet zone release lowest node]
      rfl
    · refine ⟨_, row, ?_⟩
      rw [State.offerPlace_lock (s := left) quiet none, State.offerLock_first (s := left) locks below pending]
      exact ⟨rfl, State.lock_setLock_same _ _ _⟩
  · intro s r item
    refine ⟨fun room => State.requestTx_room room, fun full cls => State.requestTx_display full cls, ?_⟩
    intro pre v post full queue waits lower behind before alone
    rw [State.requestTx_evicts full (evictee_newest queue waits lower behind before), State.removeTx_eq queue alone]
    have kept := State.placeTx_lif_congr
      (State.dropped_frame ({ s with lif := { s.lif with txq := pre ++ post } } : State) v.origin).2.1 r
    rw [kept]
    rfl

end Sys2Proof.Machine
end

section
/-! SUPPORT. What the course of a fire moves: the one zone's record, and nothing of the nodes, the zones, the climate, the
code, the lines or another zone's record but its release flags (R96 to R116). -/

namespace Sys2Proof.Machine

/-! ## The rest of a record tells its fields -/

section

variable {f g : Fire}

theorem Fire.state_of_core (h : f.core = g.core) : f.state = g.state :=
  show f.core.state = g.core.state from congrArg Fire.state h
theorem Fire.remaining_of_core (h : f.core = g.core) : f.remaining = g.remaining :=
  show f.core.remaining = g.core.remaining from congrArg Fire.remaining h
theorem Fire.knock_of_core (h : f.core = g.core) : f.knock = g.knock :=
  show f.core.knock = g.core.knock from congrArg Fire.knock h
theorem Fire.alarm_of_core (h : f.core = g.core) : f.alarm = g.alarm :=
  show f.core.alarm = g.core.alarm from congrArg Fire.alarm h
theorem Fire.releaseFault_of_core (h : f.core = g.core) : f.releaseFault = g.releaseFault :=
  show f.core.releaseFault = g.core.releaseFault from congrArg Fire.releaseFault h

end

/-! ## What a fire's course leaves -/

/-- From `s` to `t` the fire of the zone `z` has run its course. -/
structure State.FireRuns (z : Nat) (s t : State) : Prop where
  size       : t.fz.fire.length = s.fz.fire.length
  others     : ∀ y, y ≠ z → (t.fire y).core = (s.fire y).core
  nt         : t.nt = s.nt
  zt         : t.zt = s.zt
  cu         : t.cu = s.cu
  cs         : t.cs = s.cs
  lines      : t.lu.lines = s.lu.lines
  conditions : t.lu.conditions = s.lu.conditions
  raw        : t.lu.raw = s.lu.raw

/-- The raw levels are the outside's. -/
theorem State.keptRaw (r : List Level) : KeptFire (fun s => s.lu.raw = r) where
  post h := h
  passDownOutcome h := by simpa using h
  setLock h := h
  delLock h := h
  setActuator h := h
  delActuator h := h
  setOrder h := h
  delOrder h := h
  place h _ := h
  swap h _ := h
  mapOrigins h := h
  flags h _ := h
  cleared h := h
  alert h := h
  setCartridge h := h
  delCartridge h := h
  party h := h
  setEngine {s e x} h _ := by cases e <;> exact h
  setClimate h := h
  setActive h := h
  fault h := h
  release h := h
  conditions h := h
  setFire h _ _ := h
  setNode h := h
  faultSilent h := h
  healthy h := h

namespace State.FireRuns

variable {s t u : State} {z : Nat}

theorem refl (z : Nat) (s : State) : FireRuns z s s := ⟨rfl, fun _ _ => rfl, rfl, rfl, rfl, rfl, rfl, rfl, rfl⟩

theorem trans (h : FireRuns z s t) (k : FireRuns z t u) : FireRuns z s u where
  size := k.size.trans h.size
  others y other := (k.others y other).trans (h.others y other)
  nt := k.nt.trans h.nt
  zt := k.zt.trans h.zt
  cu := k.cu.trans h.cu
  cs := k.cs.trans h.cs
  lines := k.lines.trans h.lines
  conditions := k.conditions.trans h.conditions
  raw := k.raw.trans h.raw

theorem states (h : FireRuns z s t) {y : Nat} (other : y ≠ z) : (t.fire y).state = (s.fire y).state :=
  Fire.state_of_core (h.others y other)

theorem zone (h : FireRuns z s t) (y : Nat) : t.zone y = s.zone y := by
  unfold State.zone
  rw [h.zt]

theorem conditionsOf (h : FireRuns z s t) (y : Nat) : t.conditions y = s.conditions y := by
  unfold State.conditions
  rw [h.conditions]

theorem setFire (s : State) (z : Nat) (f : Fire) : FireRuns z s (s.setFire z f) where
  size := List.length_set
  others y other := by
    rw [State.fire_setFire, if_neg fun h => other h.1]
  nt := rfl
  zt := rfl
  cu := rfl
  cs := rfl
  lines := rfl
  conditions := rfl
  raw := rfl

/-- What leaves fire records, nodes, zones, climate, code and the lines' inputs as they are. -/
theorem of_same (fz : t.fz.fire = s.fz.fire) (nt : t.nt = s.nt) (zt : t.zt = s.zt) (cu : t.cu = s.cu) (cs : t.cs = s.cs)
    (lines : t.lu.lines = s.lu.lines) (conditions : t.lu.conditions = s.lu.conditions) (raw : t.lu.raw = s.lu.raw)
    (z : Nat) : FireRuns z s t :=
  ⟨by rw [fz], fun y _ => by rw [State.fire_congr fz], nt, zt, cu, cs, lines, conditions, raw⟩

theorem post (s : State) (z : Nat) (b : NoticeBody) : FireRuns z s (s.post b) :=
  of_same (s := s) (t := s.post b) rfl rfl rfl rfl rfl rfl rfl rfl z

theorem evalFault (s : State) (z : Nat) : FireRuns z s s.evalFault :=
  of_same (s := s) (t := s.evalFault) rfl rfl rfl rfl rfl rfl rfl rfl z

theorem postReleaseFault (s : State) (z : Nat) (b : Bool) : FireRuns z s (s.postReleaseFault z b) := post s z _

theorem handOn (s : State) (z : Nat) (b : FireState) : FireRuns z s (s.handOn z b) := by
  have core := (State.FireCore.kept s.fz.fire.length (fun y => (s.fire y).core)).handOn (z := z) (b := b) (s := s)
    ⟨rfl, fun _ => rfl⟩
  have wired := State.Wired.handOn (s := s) (l := s.lu.lines) (c := s.lu.conditions) (p := fun _ => True) (z := z) (b := b)
    ⟨rfl, rfl, trivial⟩
  have raw := (State.keptRaw s.lu.raw).handOn (s := s) (z := z) (b := b) rfl
  refine ⟨core.size, fun y _ => core.core y, ?_, ?_, ?_, ?_, wired.1, wired.2.1, raw⟩ <;> simp

theorem changeFire (s : State) (z : Nat) (c : FireCause) (a : Option Nat) (f : Fire → Fire) :
    FireRuns z s (s.changeFire z c a f) :=
  ((setFire s z _).trans (post _ z _)).trans (handOn _ z _)

theorem loadCountdown (s : State) (z : Nat) (c : FireCause) : FireRuns z s (s.loadCountdown z c) := by
  unfold State.loadCountdown
  dsimp only
  exact iteInduction (fun _ => changeFire ..) (fun _ => changeFire ..)

theorem fault (s : State) (z : Nat) (b : Bool) :
    FireRuns z s ((s.setFire z { s.fire z with releaseFault := b }).postReleaseFault z b).evalFault :=
  ((setFire s z _).trans (postReleaseFault _ z b)).trans (evalFault _ z)

theorem dischargeCheck (s : State) (z : Nat) : FireRuns z s (s.dischargeCheck z) := by
  unfold State.dischargeCheck
  exact iteInduction (fun _ => refl z s) (fun _ => iteInduction (fun _ => loadCountdown ..) (fun _ => fault ..))

theorem confirmFire (s : State) (z : Nat) (c : FireCause) (a : Option Nat) : FireRuns z s (s.confirmFire z c a) :=
  (changeFire s z c a _).trans (dischargeCheck _ z)

theorem panelActive (s : State) (z : Nat) : FireRuns z s (s.panelActive z) :=
  iteInduction (fun _ => confirmFire ..) (fun _ => refl z s)

theorem manualActive (s : State) (z : Nat) : FireRuns z s (s.manualActive z) :=
  iteInduction (fun _ => confirmFire ..) (fun _ => refl z s)

theorem firstAlarm (s : State) (z d : Nat) : FireRuns z s (s.firstAlarm z d) :=
  iteInduction (fun _ => changeFire ..) (fun _ => confirmFire ..)

theorem abortActive (s : State) (z : Nat) : FireRuns z s (s.abortActive z) :=
  iteInduction (fun _ => changeFire ..) (fun _ => refl z s)

theorem dischargeActive (s : State) (z : Nat) : FireRuns z s (s.dischargeActive z) :=
  iteInduction (fun _ => (fault s z false).trans (loadCountdown ..)) (fun _ => refl z s)

theorem alarm (s : State) (z d : Nat) : FireRuns z s (s.alarm z d) := by
  unfold State.alarm
  dsimp only
  refine iteInduction (fun _ => refl z s) (fun _ => ?_)
  have sets := setFire s z { s.fire z with
    alarm := setInsert (s.fire z).alarm d
    knock := (if (s.fire z).state = .isolated then (s.fire z).knock else setInsert (s.fire z).knock d) }
  split
  case h_1 => exact sets.trans (firstAlarm _ z d)
  case h_2 => exact iteInduction (fun _ => sets) (fun _ => sets.trans (confirmFire _ z _ _))
  all_goals exact sets

end State.FireRuns

/-! ## What the zone's own record becomes -/

section

variable {s : State} {z : Nat}

theorem State.shaped_fire_length (h : s.shaped = true) : s.fz.fire.length = 16 := by
  simp only [State.shaped, Bool.and_eq_true, decide_eq_true_eq] at h
  tauto

theorem State.shaped_conditions_length (h : s.shaped = true) : s.lu.conditions.length = 16 := by
  simp only [State.shaped, Bool.and_eq_true, decide_eq_true_eq] at h
  tauto

theorem State.fire_setFire_same (place : z < s.fz.fire.length) (f : Fire) : (s.setFire z f).fire z = f := by
  rw [State.fire_setFire, if_pos ⟨rfl, place⟩]

theorem State.changeFire_same (place : z < s.fz.fire.length) (c : FireCause) (a : Option Nat) (f : Fire → Fire) :
    ((s.changeFire z c a f).fire z).core = (f (s.fire z)).core := by
  rw [(s.changeFire_core z c a f).core z, if_pos ⟨rfl, place⟩]

/-- FZ loads the countdown: COUNTDOWN, or HELD under an active abort, with the release delay (R106). -/
theorem State.loadCountdown_same {e : ZoneEntry} (place : z < s.fz.fire.length) (zone : s.zone z = some e) (c : FireCause) :
    ((s.loadCountdown z c).fire z).core = ({ s.fire z with
      state := (if (s.conditions z).abort then .held else .countdown)
      remaining := some (10 * e.fire.delay), phase := 0 } : Fire).core := by
  unfold State.loadCountdown
  rw [zone]
  dsimp only [Option.map_some, Option.getD_some]
  by_cases abort : (s.conditions z).abort = true
  · rw [if_pos abort, if_pos abort, State.changeFire_same place]
  · rw [if_neg abort, if_neg abort, State.changeFire_same place]

theorem State.releaseLine_eq {e : ZoneEntry} (zone : s.zone z = some e) : s.releaseLine z = e.fire.line := by
  unfold State.releaseLine
  rw [zone]
  rfl

/-- A zone without a release line stays CONFIRMED (R104). -/
theorem State.confirmFire_lineless {e : ZoneEntry} (zone : s.zone z = some e) (lineless : e.fire.line = none) (c : FireCause)
    (a : Option Nat) : s.confirmFire z c a = s.changeFire z c a (fun f => { f with state := .confirmed }) := by
  have none := State.releaseLine_eq (((FireRuns.changeFire s z c a (fun f => { f with state := .confirmed })).zone z).trans zone)
  rw [lineless] at none
  exact if_pos (by rw [none]; rfl)

theorem State.confirmFire_lineless_same {e : ZoneEntry} (place : z < s.fz.fire.length) (zone : s.zone z = some e)
    (lineless : e.fire.line = none) (c : FireCause) (a : Option Nat) :
    ((s.confirmFire z c a).fire z).core = ({ s.fire z with state := .confirmed } : Fire).core := by
  rw [State.confirmFire_lineless zone lineless, State.changeFire_same place]

end

/-! ## The head of the ring (R12 to R14) -/

theorem State.isDispatched_eq_false {s : State} {it : RingItem} (h : dispatches it.cls it.kind = false ∨ s.node it.src = none) :
    s.isDispatched it = false := by
  unfold State.isDispatched
  rcases h with h | h <;> simp [h]

/-- Settles O19: an item no owner takes is popped, and CAT busy stops the row of its items. -/
theorem ringHeadsLeaveInOrder : Obligations.RingHeadsLeaveInOrder := by
  intro s it rest ring
  refine ⟨fun unowned => ?_, fun busy => congrArg Host.Outcome.next (if_pos busy)⟩
  refine congrArg Host.Outcome.next ?_
  rw [ring]
  dsimp only
  rw [State.isDispatched_eq_false unowned, if_neg Bool.false_ne_true]
  unfold State.popRing
  rw [ring]
  by_cases few : rest.length ≤ 8
  · simp [few, Nat.not_lt.2 few]
  · simp [few, Nat.lt_of_not_le few]

/-! ## Supervision (R29 to R32) -/

section

variable {s : State} {a : Nat} {e : NodeEntry}

theorem exec_intervalTimerExpiry_running (entry : s.node a = some e) (running : e.timer ≠ some 0) :
    exec (.intervalTimerExpiry a) s = .next s := by
  refine congrArg Host.Outcome.next ?_
  rw [entry]
  exact if_neg fun due => running ((timerDue_iff e.timer).1 due)

theorem exec_intervalTimerExpiry_due (entry : s.node a = some e) (due : e.timer = some 0) :
    exec (.intervalTimerExpiry a) s = .next (match e.sup with
      | .ok => s.changeSupervision a { e with sup := .suspect, timer := intervalTimer e.interval } .missed
      | .suspect => s.changeSupervision a { e with sup := .fault, timer := none } .lost
      | .fault => s
      | .silent => s) := by
  refine congrArg Host.Outcome.next ?_
  rw [entry]
  exact if_pos ((timerDue_iff e.timer).2 due)

/-- What a change of supervision tells: the NODE_STATE notice, which is the one notice where no PRE_ALARM is confirmed. -/
theorem State.changeSupervision_told (s : State) (a : Nat) (e : NodeEntry) (w : NodeReason) :
    (e.cls ≠ .detector ∨ (s.fire e.zone).state ≠ .preAlarm →
        (s.changeSupervision a e w).ti = (s.post (.nodeState a e.cls e.zone e.sup w)).ti)
      ∧ ∃ u : State, u.ti = (s.post (.nodeState a e.cls e.zone e.sup w)).ti
        ∧ (s.changeSupervision a e w = u ∨ s.changeSupervision a e w = u.confirmFire e.zone .healthyCount none) := by
  refine ⟨fun calm => State.changeSupervision_ti (fun detector => calm.resolve_left (not_not_intro detector)) a w, ?_⟩
  obtain ⟨u, ti, ended⟩ := s.changeSupervision_cases a e w
  exact ⟨u, ti, ended.imp id And.right⟩

end

/-- Settles O20: the row is a change of supervision, whose node, frame and notice the lemmas give. -/
theorem intervalExpiryStepsTheSupervision : Obligations.IntervalExpiryStepsTheSupervision := by
  intro s a e entry told
  refine ⟨fun due ok => ?_, fun due suspect => ?_, fun running => exec_intervalTimerExpiry_running entry running⟩
  · let e' : NodeEntry := { e with sup := .suspect, timer := intervalTimer e.interval }
    have row : exec (.intervalTimerExpiry a) s = .next (s.changeSupervision a e' .missed) := by
      rw [exec_intervalTimerExpiry_due entry due, ok]
    exact ⟨_, row, State.node_changeSupervision_same .., fun b other => State.node_changeSupervision_other _ _ _ _ other,
      by simp, by simp, by simp, s.changeSupervision_told a e' _⟩
  · let e' : NodeEntry := { e with sup := .fault, timer := none }
    have row : exec (.intervalTimerExpiry a) s = .next (s.changeSupervision a e' .lost) := by
      rw [exec_intervalTimerExpiry_due entry due, suspect]
    exact ⟨_, row, State.node_changeSupervision_same .., fun b other => State.node_changeSupervision_other _ _ _ _ other,
      by simp, by simp, by simp, s.changeSupervision_told a e' _⟩

section

variable {s : State} {it : RingItem} {e : NodeEntry}

theorem exec_detTrouble_of_offers (h : s.offers it 0x12#8 e) : exec .detTrouble s
    = .next (if e.cls = .detector ∧ e.lastSeq = some it.seq ∧ e.sup ≠ .fault then
        s.popRing.changeSupervision it.src { e with sup := .fault, timer := none } .trouble
      else s.popRing) := by
  refine congrArg Host.Outcome.next ((State.takeHead_offers h _).trans ?_)
  rw [State.popRing_node, h.node_eq]

theorem exec_status_of_offers (h : s.offers it 0x01#8 e) : exec .status s
    = .next (match it.payload with
      | [b] => s.popRing.setNode it.src { e with condition := some b }
      | _ => s.popRing) := by
  refine congrArg Host.Outcome.next ((State.takeHead_offers h _).trans ?_)
  rw [State.popRing_node, h.node_eq]
  match it.payload with
  | [] => rfl
  | [b] => rfl
  | b :: c :: l => rfl

end

/-- Settles O21: the row of DET_TROUBLE by its guard, that of STATUS by the length of its payload. -/
theorem troubleAndStatusAreNoted : Obligations.TroubleAndStatusAreNoted := by
  refine ⟨?_, ?_, ?_⟩
  · intro s it e offered detector
    refine ⟨fun newest up => ?_, fun stale => ?_⟩
    · refine ⟨_, (exec_detTrouble_of_offers offered).trans (congrArg Host.Outcome.next (if_pos ⟨detector, newest, up⟩)),
        State.node_changeSupervision_same .., fun b other => State.node_changeSupervision_other _ _ _ _ other,
        by simp, by simp, by simp, fun calm => ?_⟩
      have told := State.changeSupervision_ti (s := s.popRing) (e := { e with sup := .fault, timer := none })
        (fun _ => calm) it.src .trouble
      rw [told, ← detector]
      exact State.post_ti_congr rfl rfl _
    · rw [exec_detTrouble_of_offers offered, if_neg]
      rintro ⟨-, newest, up⟩
      exact stale.elim (fun older => older newest) up
  · intro s it e offered other
    rw [exec_detTrouble_of_offers offered, if_neg fun h => other h.1]
  · intro s it e offered
    refine ⟨fun b payload => ?_, fun length => ?_⟩ <;> rw [exec_status_of_offers offered]
    · rw [payload]
    · match it.payload, length with
      | [], _ => rfl
      | [b], one => exact absurd rfl one
      | b :: c :: l, _ => rfl

/-! ## A line changed in its place (R50) -/

/-- An entry that meets a test no more than the one it replaces: the test of the table stands. -/
theorem Table.any_put_blind {α : Type} {p : α → Bool} {t : Table α} {k : Nat} {a x : α} (there : Table.get t k = some x)
    (old : p x = false) (new : p a = false) : (Table.put t k a).any (fun q => p q.2) = t.any (fun q => p q.2) := by
  induction t with
  | nil => simp [Table.get] at there
  | cons q t ih =>
    obtain ⟨i, y⟩ := q
    unfold Table.put
    split
    · simp [new]
    · split
      · rename_i same
        have first : y = x := by
          rw [Table.get, if_pos same.symm] at there
          exact Option.some.inj there
        simp [new, old, first]
      · rename_i other
        rw [Table.get, if_neg (Ne.symm other)] at there
        simp [ih there]

theorem Table.any_put_new {α : Type} {p : α → Bool} {a : α} (t : Table α) (k : Nat) (new : p a = true) :
    (Table.put t k a).any (fun q => p q.2) = true :=
  List.any_eq_true.2 ⟨(k, a), Table.get_mem (Table.get_put_same t k a), new⟩

/-- The line settles: its level is `v`, and its timer stops (R49). -/
def LineEntry.settledAt (l : LineEntry) (v : Level) : LineEntry := { l with settled := v, timer := none }

/-- The lines with one of them settled at a level. -/
def State.withSettled (s : State) (n : Nat) (l : LineEntry) (v : Level) : State :=
  { s with lu := { s.lu with lines := Table.put s.lu.lines n (l.settledAt v) } }

section

variable {s : State} {n : Nat} {l : LineEntry} {v : Level} {f : LineFunction} {z : Nat}

theorem LineEntry.asserts_other (other : l.function ≠ f) : l.asserts f z = false := by simp [LineEntry.asserts, other]

theorem State.withSettled_anyLine_other (line : Table.get s.lu.lines n = some l) (other : l.function ≠ f) :
    (s.withSettled n l v).anyLine f z = s.anyLine f z :=
  Table.any_put_blind line (LineEntry.asserts_other other) (LineEntry.asserts_other (l := l.settledAt v) other)

theorem State.withSettled_anyLine_active (function : l.function = f) (active : v = l.active) :
    (s.withSettled n l v).anyLine f l.zone = true := by
  refine Table.any_put_new (p := LineEntry.asserts f l.zone) s.lu.lines n ?_
  simp [LineEntry.asserts, LineEntry.settledAt, LineEntry.isActive, function, active]

theorem State.withSettled_discharge_other (line : Table.get s.lu.lines n = some l) (other : l.function ≠ .dischargeOk) :
    (s.withSettled n l v).dischargeCondition z = s.dischargeCondition z := by
  unfold State.dischargeCondition
  rw [show (s.withSettled n l v).zone z = s.zone z from rfl]
  cases (s.zone z).bind (·.fire.checkLine) with
  | none => rfl
  | some m =>
    dsimp only [State.withSettled]
    by_cases same : m = n
    · rw [same, Table.get_put_same, line]
      simp [LineEntry.settledAt, other]
    · rw [Table.get_put_other _ _ same]

theorem State.withSettled_discharge_active {e : ZoneEntry} (zone : s.zone l.zone = some e) (check : e.fire.checkLine = some n)
    (function : l.function = .dischargeOk) (active : v = l.active) :
    (s.withSettled n l v).dischargeCondition l.zone = true := by
  unfold State.dischargeCondition
  rw [show (s.withSettled n l v).zone l.zone = some e from zone]
  dsimp only [Option.bind_some, State.withSettled]
  rw [check]
  dsimp only
  rw [Table.get_put_same]
  simp [LineEntry.settledAt, LineEntry.isActive, function, active]

end

/-! ## The edge (R49, R50) -/

section

variable {s : State} {n : Nat} {l : LineEntry} {v : Level} {e : ZoneEntry} {z : Nat}

/-- The conditions of a zone set (R50). -/
def State.setConditions (s : State) (z : Nat) (c : Conditions) : State :=
  { s with lu := { s.lu with conditions := s.lu.conditions.set z c } }

theorem exec_settleTimerExpiry_running (line : Table.get s.lu.lines n = some l) (running : l.timer ≠ some 0) :
    exec (.settleTimerExpiry n) s = .next s := by
  refine congrArg Host.Outcome.next ?_
  rw [line]
  exact if_neg fun due => running ((timerDue_iff l.timer).1 due)

theorem exec_settleTimerExpiry_due (line : Table.get s.lu.lines n = some l) (due : l.timer = some 0) :
    exec (.settleTimerExpiry n) s = .next ((s.withSettled n l (s.lu.raw.getD n l.settled)).settledEdge l.zone) := by
  refine congrArg Host.Outcome.next ?_
  rw [line]
  exact if_pos ((timerDue_iff l.timer).2 due)

theorem State.settledEdge_eq (s : State) (z : Nat) : s.settledEdge z
    = (s.setConditions z (s.computeConditions z)).conditionEdges z (s.conditions z) (s.computeConditions z) := rfl

theorem State.conditionEdges_same (c : Conditions) : s.conditionEdges z c c = s := by
  unfold State.conditionEdges
  simp

theorem Conditions.eq_of_parts {a b : Conditions} (abort : a.abort = b.abort) (manual : a.manual = b.manual)
    (panel : a.panel = b.panel) (discharge : a.discharge = b.discharge) : a = b := by
  obtain ⟨_, _, _, _⟩ := a
  obtain ⟨_, _, _, _⟩ := b
  simp_all

/-- An edge of one condition of a zone with an entry is handed on alone. -/
theorem State.conditionEdges_eq (zone : s.zone z = some e) (b a : Conditions) : s.conditionEdges z b a
    = let s1 := if b.abort = a.abort then s else if a.abort then s.abortActive z else s.abortReleased z
      let s2 := if !b.manual && a.manual then s1.manualActive z else s1
      let s3 := if !b.panel && a.panel then s2.panelActive z else s2
      if !b.discharge && a.discharge then s3.dischargeActive z else s3 := by
  unfold State.conditionEdges
  rw [zone]
  rfl

theorem State.FireRuns.abortReleased (s : State) (z : Nat) : State.FireRuns z s (s.abortReleased z) := by
  unfold State.abortReleased
  refine iteInduction (fun _ => ?_) (fun _ => State.FireRuns.refl z s)
  split
  · split
    · exact State.FireRuns.loadCountdown ..
    · exact State.FireRuns.changeFire ..
  · exact State.FireRuns.refl z s

theorem State.conditionEdges_runs (s : State) (z : Nat) (b a : Conditions) : State.FireRuns z s (s.conditionEdges z b a) := by
  cases zone : s.zone z with
  | none =>
    unfold State.conditionEdges
    rw [zone]
    exact State.FireRuns.refl z s
  | some e =>
    rw [State.conditionEdges_eq zone]
    have h1 : State.FireRuns z s (if b.abort = a.abort then s else if a.abort then s.abortActive z else s.abortReleased z) :=
      iteInduction (fun _ => State.FireRuns.refl z s)
        (fun _ => iteInduction (fun _ => State.FireRuns.abortActive s z) (fun _ => State.FireRuns.abortReleased s z))
    have h2 := h1.trans (iteInduction (c := (!b.manual && a.manual) = true) (motive := State.FireRuns z _)
      (fun _ => State.FireRuns.manualActive _ z) (fun _ => State.FireRuns.refl z _))
    have h3 := h2.trans (iteInduction (c := (!b.panel && a.panel) = true) (motive := State.FireRuns z _)
      (fun _ => State.FireRuns.panelActive _ z) (fun _ => State.FireRuns.refl z _))
    exact h3.trans (iteInduction (c := (!b.discharge && a.discharge) = true) (motive := State.FireRuns z _)
      (fun _ => State.FireRuns.dischargeActive _ z) (fun _ => State.FireRuns.refl z _))

section

variable {b a : Conditions} (zone : s.zone z = some e)

include zone

theorem State.conditionEdges_abort (abort : b.abort = false ∧ a.abort = true) (manual : a.manual = b.manual)
    (panel : a.panel = b.panel) (discharge : a.discharge = b.discharge) : s.conditionEdges z b a = s.abortActive z := by
  rw [State.conditionEdges_eq zone]
  simp [abort.1, abort.2, manual, panel, discharge]

theorem State.conditionEdges_manual (abort : a.abort = b.abort) (manual : b.manual = false ∧ a.manual = true)
    (panel : a.panel = b.panel) (discharge : a.discharge = b.discharge) : s.conditionEdges z b a = s.manualActive z := by
  rw [State.conditionEdges_eq zone]
  simp [abort, manual.1, manual.2, panel, discharge]

theorem State.conditionEdges_panel (abort : a.abort = b.abort) (manual : a.manual = b.manual)
    (panel : b.panel = false ∧ a.panel = true) (discharge : a.discharge = b.discharge) :
    s.conditionEdges z b a = s.panelActive z := by
  rw [State.conditionEdges_eq zone]
  simp [abort, manual, panel.1, panel.2, discharge]

theorem State.conditionEdges_discharge (abort : a.abort = b.abort) (manual : a.manual = b.manual)
    (panel : a.panel = b.panel) (discharge : b.discharge = false ∧ a.discharge = true) :
    s.conditionEdges z b a = s.dischargeActive z := by
  rw [State.conditionEdges_eq zone]
  simp [abort, manual, panel, discharge.1, discharge.2]

end

/-- The conditions of the line's zone after the edge: those of another function stand. -/
theorem State.withSettled_conditions (line : Table.get s.lu.lines n = some l) :
    let a := (s.withSettled n l v).computeConditions z
    let b := s.computeConditions z
    (l.function ≠ .abort → a.abort = b.abort) ∧ (l.function ≠ .manualRelease → a.manual = b.manual)
      ∧ (l.function ≠ .panelAlarm → a.panel = b.panel) ∧ (l.function ≠ .dischargeOk → a.discharge = b.discharge) :=
  ⟨State.withSettled_anyLine_other line, State.withSettled_anyLine_other line, State.withSettled_anyLine_other line,
    State.withSettled_discharge_other line⟩

/-- The line's zone with its line settled and its conditions set, before the edge is handed on. -/
def State.edged (s : State) (n : Nat) (l : LineEntry) (v : Level) : State :=
  (s.withSettled n l v).setConditions l.zone ((s.withSettled n l v).computeConditions l.zone)

theorem State.edged_conditions (shaped : s.shaped = true) (small : l.zone < 16) :
    (s.edged n l v).conditions l.zone = (s.withSettled n l v).computeConditions l.zone := by
  have length := State.shaped_conditions_length shaped
  show (s.lu.conditions.set l.zone _).getD l.zone _ = _
  rw [List.getD, List.getElem?_set_self (by omega), Option.getD_some]

/-- A zone in NORMAL or PRE_ALARM is confirmed by its panel or its manual release, and else nothing moves (R102, R103). -/
theorem State.confirmIfCalm_state (place : z < s.fz.fire.length) (zone : s.zone z = some e)
    (lineless : e.fire.line = none) (c : FireCause) :
    ((if (s.fire z).state = .normal ∨ (s.fire z).state = .preAlarm then s.confirmFire z c none else s).fire z).state
      = match (s.fire z).state with
        | .normal => .confirmed
        | .preAlarm => .confirmed
        | .confirmed => .confirmed
        | .countdown => .countdown
        | .held => .held
        | .released => .released
        | .isolated => .isolated := by
  have confirmed : ((s.confirmFire z c none).fire z).state = .confirmed :=
    Fire.state_of_core (State.confirmFire_lineless_same place zone lineless c none)
  cases state : (s.fire z).state
  case normal => rw [if_pos (.inl rfl), confirmed]
  case preAlarm => rw [if_pos (.inr rfl), confirmed]
  all_goals rw [if_neg (by simp), state]

/-- The discharge condition active clears RELEASE_FAULT and loads the countdown (R105). -/
theorem State.dischargeActive_same (place : z < s.fz.fire.length) (zone : s.zone z = some e)
    (confirmed : (s.fire z).state = .confirmed) (faulted : (s.fire z).releaseFault = true) :
    ((s.dischargeActive z).fire z).core = ({ s.fire z with
      state := (if (s.conditions z).abort then .held else .countdown)
      remaining := some (10 * e.fire.delay), phase := 0, releaseFault := false } : Fire).core := by
  obtain ⟨u, cleared⟩ : ∃ u, u = ((s.setFire z { s.fire z with releaseFault := false }).postReleaseFault z false).evalFault :=
    ⟨_, rfl⟩
  have record : u.fire z = { s.fire z with releaseFault := false } := by
    rw [cleared]
    exact State.fire_setFire_same place _
  have runs : State.FireRuns z s u := cleared ▸ State.FireRuns.fault s z false
  have loads : s.dischargeActive z = u.loadCountdown z .countdownLoaded := by
    rw [cleared]
    exact if_pos ⟨confirmed, faulted⟩
  rw [loads, State.loadCountdown_same (by rw [runs.size]; exact place) ((runs.zone z).trans zone), record, runs.conditionsOf]

end

/-! ## The raw levels (R48, R49) -/

theorem exec_rawLevelChange_moves {s : State} {n : Nat} {v w : Level} (stands : s.lu.raw[n]? = some v) (other : v ≠ w) :
    exec (.rawLevelChange n w) s = .next (match Table.get s.lu.lines n with
      | none => { s with lu := { s.lu with raw := s.lu.raw.set n w } }
      | some l => { s with lu := { s.lu with raw := s.lu.raw.set n w, lines := Table.put s.lu.lines n (l.rawChanged w) } }) := by
  refine congrArg Host.Outcome.next ((if_neg ?_).trans ?_)
  · rw [List.getD, stands]
    exact other
  · cases line : Table.get s.lu.lines n <;> simp only [line] <;> rfl

/-- Settles O22: the raw level and the settle timer, and each function's edge by the conditions it moves. -/
theorem settleTimersMakeTheEdges : Obligations.SettleTimersMakeTheEdges := by
  refine ⟨?_, fun s n l => exec_settleTimerExpiry_running, ?_⟩
  · intro s n v stands other moved
    have row := exec_rawLevelChange_moves stands (show v ≠ other by cases v <;> decide)
    refine ⟨fun absent => by rw [row, absent], fun l line => ?_⟩
    rw [row, line]
    dsimp only [LineEntry.rawChanged]
    simp only [eq_comm (a := other)]
    rfl
  · intro s n l e shaped line due zone small stands v
    obtain ⟨edged, isEdged⟩ : ∃ u, u = s.edged n l v := ⟨_, rfl⟩
    obtain ⟨a, computed⟩ : ∃ a, a = (s.withSettled n l v).computeConditions l.zone := ⟨_, rfl⟩
    have row : exec (.settleTimerExpiry n) s = .next (edged.conditionEdges l.zone (s.conditions l.zone) a) := by
      rw [exec_settleTimerExpiry_due line due, State.settledEdge_eq, isEdged, computed]
      rfl
    have runs := edged.conditionEdges_runs l.zone (s.conditions l.zone) a
    obtain ⟨abort, manual, panel, discharge⟩ := State.withSettled_conditions (z := l.zone) (v := v) line
    rw [← computed, ← stands] at abort manual panel discharge
    have lines : edged.lu.lines = Table.put s.lu.lines n { l with settled := v, timer := none } := by
      rw [isEdged]
      rfl
    have raw : edged.lu.raw = s.lu.raw := by rw [isEdged]; rfl
    have fz : edged.fz = s.fz := by rw [isEdged]; rfl
    have fire (y : Nat) : edged.fire y = s.fire y := State.fire_congr (by rw [fz]) y
    have place : l.zone < edged.fz.fire.length := by
      rw [fz, State.shaped_fire_length shaped]
      exact small
    have zoned : edged.zone l.zone = some e := by
      rw [isEdged]
      exact zone
    have set : edged.conditions l.zone = a := by
      rw [isEdged, computed]
      exact State.edged_conditions shaped small
    have frame : edged.nt = s.nt ∧ edged.zt = s.zt ∧ edged.cu = s.cu ∧ edged.cs = s.cs := by
      rw [isEdged]
      exact ⟨rfl, rfl, rfl, rfl⟩
    have others {t : State} (run : State.FireRuns l.zone edged t) : (∀ y, y ≠ l.zone → (t.fire y).state = (s.fire y).state)
        ∧ t.nt = s.nt ∧ t.zt = s.zt ∧ t.cu = s.cu ∧ t.cs = s.cs :=
      ⟨fun y other => (run.states other).trans (by rw [fire]), run.nt.trans frame.1, run.zt.trans frame.2.1,
        run.cu.trans frame.2.2.1, run.cs.trans frame.2.2.2⟩
    refine ⟨⟨_, row, runs.lines.trans lines, runs.raw.trans raw⟩, ?_, ?_, ?_, ?_⟩
    case refine_1 =>
      intro unused
      have same : a = s.conditions l.zone :=
        Conditions.eq_of_parts (abort (by simp [unused])) (manual (by simp [unused])) (panel (by simp [unused]))
          (discharge (by simp [unused]))
      rw [same, State.conditionEdges_same] at row
      refine ⟨edged, row, lines, ?_⟩
      rw [isEdged]
      rfl
    case refine_2 =>
      intro function _ active inactive state
      have now : a.abort = true := by
        rw [computed]
        exact State.withSettled_anyLine_active function active
      rw [State.conditionEdges_abort zoned ⟨inactive, now⟩ (manual (by simp [function])) (panel (by simp [function]))
        (discharge (by simp [function]))] at row runs
      have held : edged.abortActive l.zone
          = edged.changeFire l.zone .abort none (fun f => { f with state := .held }) :=
        if_pos (by rw [fire, state])
      have core := State.changeFire_same place .abort none (fun f => { f with state := .held })
      rw [← held, fire] at core
      refine ⟨_, row, runs.lines.trans lines, ?_, Fire.state_of_core core, (Fire.remaining_of_core core :),
        others runs⟩
      rw [runs.conditionsOf, set, now]
    case refine_3 =>
      intro function _ active lineless
      have calm (c : FireCause) := State.confirmIfCalm_state place zoned lineless c
      rw [fire] at calm
      rcases function with ⟨function, inactive⟩ | ⟨function, inactive⟩
      · have now : a.panel = true := by
          rw [computed]
          exact State.withSettled_anyLine_active function active
        rw [State.conditionEdges_panel zoned (abort (by simp [function])) (manual (by simp [function])) ⟨inactive, now⟩
          (discharge (by simp [function]))] at row runs
        refine ⟨_, row, ?_, others runs⟩
        unfold State.panelActive
        rw [fire]
        exact calm .panel
      · have now : a.manual = true := by
          rw [computed]
          exact State.withSettled_anyLine_active function active
        rw [State.conditionEdges_manual zoned (abort (by simp [function])) ⟨inactive, now⟩ (panel (by simp [function]))
          (discharge (by simp [function]))] at row runs
        refine ⟨_, row, ?_, others runs⟩
        unfold State.manualActive
        rw [fire]
        exact calm .manualRelease
    case refine_4 =>
      intro function check _ active inactive quiet state faulted
      have now : a.discharge = true := by
        rw [computed]
        exact State.withSettled_discharge_active zone check function active
      have still : a.abort = false := (abort (by simp [function])).trans quiet
      rw [State.conditionEdges_discharge zoned (abort (by simp [function])) (manual (by simp [function]))
        (panel (by simp [function])) ⟨inactive, now⟩] at row runs
      have core := State.dischargeActive_same place zoned (by rw [fire, state]) (by rw [fire, faulted])
      rw [set, still] at core
      exact ⟨_, row, Fire.state_of_core core, Fire.remaining_of_core core, Fire.releaseFault_of_core core, others runs⟩

end Sys2Proof.Machine
end

section
/-! PROOFS about the locks: the commanded state, the fire hold, the maintenance claim and the door (R53 to R58). -/

namespace Sys2Proof.Machine

/-! ## A request a full queue refuses (R21) -/

theorem newestOf_refused {q : List TxItem} {c : TxClass} {r : Nat} (none : ∀ x ∈ q, evictable c x = false) :
    newestOf q c r = Option.none := by
  unfold newestOf
  rw [show q.filter (evictable c) = [] from List.filter_eq_nil_iff.2 fun x mem => by simp [none x mem]]
  rfl

theorem evictee_refused {q : List TxItem} {c : TxClass} (none : ∀ x ∈ q, evictable c x = false) : evictee q c = Option.none := by
  rw [evictee_eq, newestOf_refused none, newestOf_refused none, newestOf_refused none]
  rfl

theorem State.requestTx_refused {s : State} {r : TxRequest} (full : 24 ≤ s.lif.txq.length)
    (none : ∀ x ∈ s.lif.txq, evictable r.cls x = false) : s.requestTx r = s.dropped r.origin := by
  rw [State.requestTx_full full, evictee_refused none]

/-! ## The commanded state (R56) -/

/-- Of two writes to one place of a table the second stands. -/
theorem Table.put_put {α : Type} (t : Table α) (k : Nat) (a b : α) : Table.put (Table.put t k a) k b = Table.put t k b := by
  induction t with
  | nil => simp [Table.put]
  | cons q t ih =>
    obtain ⟨i, x⟩ := q
    unfold Table.put
    by_cases below : k < i
    · simp [below, Table.put]
    · by_cases same : k = i
      · simp [same, Table.put]
      · simp [below, same, Table.put, ih]

theorem Claims.command_eq (c : Claims) : c.command
    = if (c.handover0 = true ∨ c.handover1 = true ∨ c.maintenance.isSome = true) ∧ c.fireHold = false
      then .unlocked else .locked := by
  simp [Claims.command, Claims.wantOpen, Bool.or_eq_true, or_assoc]

section

variable {s : State} {a : Nat} {l : Lock} {f : Claims → Claims}

theorem State.setLock_setLock (s : State) (a : Nat) (l k : Lock) : (s.setLock a l).setLock a k = s.setLock a k :=
  congrArg (fun t => { s with la := { s.la with locks := t } }) (Table.put_put s.la.locks a l k)

theorem State.setClaims_same (record : s.lock a = some l) (same : (f l.claims).command = l.commanded) :
    s.setClaims a f = s.setLock a { l with claims := f l.claims } := by
  unfold State.setClaims State.decideLock
  rw [record]
  dsimp only
  rw [State.lock_setLock_same]
  exact if_pos same

theorem State.setClaims_moves (record : s.lock a = some l) (moved : (f l.claims).command ≠ l.commanded) :
    s.setClaims a f = (let l' : Lock := { l with claims := f l.claims, commanded := (f l.claims).command }
      if l.send = .idle then (s.setLock a l').sendLock a else s.setLock a l') := by
  unfold State.setClaims State.decideLock
  rw [record]
  dsimp only
  rw [State.lock_setLock_same]
  dsimp only
  rw [if_neg moved, State.setLock_setLock]

theorem State.sendLock_refused (record : s.lock a = some l) (full : 24 ≤ s.lif.txq.length)
    (none : ∀ x ∈ s.lif.txq, evictable .lock x = false) :
    s.sendLock a = s.setLock a { l with sent := l.commanded, send := .pending } := by
  unfold State.sendLock
  rw [record]
  dsimp only
  rw [State.requestTx_refused (s := s.setLock a _) (r := lockSetRequest a l.commanded) full none]
  exact (State.lockDropped_eq (State.lock_setLock_same _ _ _)).trans (State.setLock_setLock _ _ _ _)

end

/-! ## FIRE_HOLD (R54) -/

theorem FireState.isCounting_iff (f : FireState) : f.isCounting = true ↔ f = .countdown ∨ f = .held ∨ f = .released := by
  cases f <;> simp [FireState.isCounting]

theorem State.hatchOfLock_isSome (s : State) (a : Nat) :
    (s.hatchOfLock a).isSome = true ↔ ∃ p q, p ∈ s.zt.zones ∧ p.2.handover = some q ∧ q.lock = a := by
  unfold State.hatchOfLock
  rw [List.findSome?_isSome_iff]
  constructor
  · rintro ⟨p, mem, named⟩
    cases group : p.2.handover with
    | none => simp [group] at named
    | some q => exact ⟨p, q, mem, group, by simpa [group] using named⟩
  · rintro ⟨p, q, mem, group, lock⟩
    exact ⟨p, mem, by simp [group, lock]⟩

theorem State.fireHoldDue_iff (s : State) (a : Nat) : s.fireHoldDue a = true
    ↔ ((s.hatchOfLock a).isSome = true ∧ s.fz.fireActive = true)
      ∨ (¬ (s.hatchOfLock a).isSome = true ∧ ∃ n, s.node a = some n ∧ ((s.fire n.zone).state = .countdown
          ∨ (s.fire n.zone).state = .held ∨ (s.fire n.zone).state = .released)) := by
  unfold State.fireHoldDue
  cases hatch : s.hatchOfLock a with
  | some h => simp
  | none =>
    cases node : s.node a with
    | none => simp
    | some n => simp [FireState.isCounting_iff]

theorem State.settleFireHold_settled {s : State} {a : Nat} {l : Lock} (record : s.lock a = some l)
    (settled : l.claims.fireHold = s.fireHoldDue a) : s.settleFireHold a = s := by
  unfold State.settleFireHold
  rw [record]
  exact if_pos settled

theorem State.settleFireHold_claims {s : State} {a : Nat} {l : Lock} (record : s.lock a = some l) :
    ∃ l', (s.settleFireHold a).lock a = some l' ∧ l'.claims = { l.claims with fireHold := s.fireHoldDue a } := by
  by_cases settled : l.claims.fireHold = s.fireHoldDue a
  · rw [State.settleFireHold_settled record settled, ← settled]
    exact ⟨l, record, rfl⟩
  · have decided := s.setClaims_decided a (fun c => { c with fireHold := s.fireHoldDue a }) l record
    obtain ⟨l', found, claims⟩ := Option.map_eq_some_iff.1 decided
    refine ⟨l', ?_, congrArg Prod.fst claims⟩
    unfold State.settleFireHold
    rw [record]
    dsimp only
    rw [if_neg settled, found]

/-- Settles O33: `State.setClaims` by what is commanded and what is sent, and the condition of FIRE_HOLD. -/
theorem claimsDecideTheCommandedState : Obligations.ClaimsDecideTheCommandedState := by
  refine ⟨?_, ?_⟩
  · intro s a l f record c want t
    have command : c.command = want := c.command_eq
    refine ⟨fun same => State.setClaims_same record (command.trans same), ?_, ?_, ?_⟩
    all_goals
      intro moved send
      have moves := State.setClaims_moves record (f := f) (command.symm ▸ moved)
    · have still : t = s.setLock a { l with claims := c, commanded := want } := by
        rw [← command]
        exact moves.trans (if_neg send)
      rw [still]
      exact ⟨State.lock_setLock_same _ _ _, rfl⟩
    · intro room
      have sends : t = (s.setLock a { l with claims := c, commanded := want }).sendLock a := by
        rw [← command]
        exact moves.trans (if_pos send)
      rw [sends, State.sendLock_room (State.lock_setLock_same _ _ _) room, State.lock_placeTx, State.lock_setLock_same]
      exact ⟨rfl, State.placeTx_lif_congr rfl _⟩
    · intro full free
      have sends : t = (s.setLock a { l with claims := c, commanded := want }).sendLock a := by
        rw [← command]
        exact moves.trans (if_pos send)
      have kept : ∀ x ∈ s.lif.txq, evictable .lock x = false := fun x mem => by
        rcases free x mem with state | cls | cls <;> simp [evictable, *, TxClass.rank]
      rw [sends, State.sendLock_refused (State.lock_setLock_same _ _ _) full kept, State.lock_setLock_same]
      exact ⟨rfl, rfl⟩
  · intro s a l record hatchLock due
    have dueIff : s.fireHoldDue a = true ↔ due := by
      rw [State.fireHoldDue_iff, State.hatchOfLock_isSome]
    refine ⟨?_, fun settled => State.settleFireHold_settled record (Bool.eq_iff_iff.2 (settled.trans dueIff.symm))⟩
    obtain ⟨l', found, claims⟩ := State.settleFireHold_claims record
    have hold : l'.claims.fireHold = s.fireHoldDue a := by rw [claims]
    exact ⟨l', found, hold ▸ dueIff, by rw [hold, claims]⟩

/-! ## The maintenance claim (R55) -/

section

variable {s : State} {d : Directive} {b d0 d1 : Byte} {a : Nat} {l : Lock}

theorem exec_maintUnlock_of_taken (taken : s.hasTakenVerified d) (body : d.body = [0x33#8, b, d0, d1]) :
    exec .maintUnlock s = .next
      (if addressInRange b.toNat = false ∨ d0.toNat + 256 * d1.toNat = 0 ∨ 300 < d0.toNat + 256 * d1.toNat
        then s.taken.conclude d .range .empty
        else match s.lock b.toNat with
          | none => s.taken.conclude d .notFound .empty
          | some l =>
            if l.claims.fireHold then s.taken.conclude d .badState .empty
            else
              let u := s.taken.setClaims b.toNat
                (fun c => { c with maintenance := some (100 * (d0.toNat + 256 * d1.toNat)) })
              u.conclude d .ok (.commanded (((u.lock b.toNat).map (·.commanded)).getD .locked))) := by
  refine congrArg Host.Outcome.next ((State.takeDirective_coded_verified taken body (by decide) _ _).trans ?_)
  rw [State.formed_coded 4 body rfl]
  simp only [List.take_succ_cons, List.take_zero, List.drop_succ_cons, List.drop_zero, leNat_one, leNat_two, Bool.not_eq_true',
    secs]
  rw [show s.taken.lock b.toNat = s.lock b.toNat from rfl]
  split
  · rfl
  · cases s.lock b.toNat with
    | none => rfl
    | some l =>
      dsimp only
      split <;> rfl

theorem State.commanded_maintenance (record : s.lock a = some l) (calm : l.claims.fireHold = false) (t : Nat) :
    ((((s.setClaims a (fun c => { c with maintenance := some t })).lock a).map (·.commanded)).getD .locked) = .unlocked := by
  have decided := s.setClaims_decided a (fun c => { c with maintenance := some t }) l record
  obtain ⟨l', found, claims⟩ := Option.map_eq_some_iff.1 decided
  rw [found, Option.map_some, Option.getD_some, show l'.commanded = _ from congrArg Prod.snd claims]
  simp [Claims.command, Claims.wantOpen, calm]

theorem exec_maintenanceExpiry_of_lock (record : s.lock a = some l) : exec (.maintenanceExpiry a) s
    = .next (if timerDue l.claims.maintenance then s.setClaims a (fun c => { c with maintenance := none }) else s) := by
  refine congrArg Host.Outcome.next ?_
  rw [record]

end

/-- Settles O34: the row's checks in their order, and the claim's timer. -/
theorem maintenanceClaimRunsItsTime : Obligations.MaintenanceClaimRunsItsTime := by
  intro s d b d0 d1 a l
  refine ⟨fun taken body => ⟨fun wrong => ?_, fun inRange some most => ?_⟩, fun record due => ?_, fun record running => ?_⟩
  · rw [exec_maintUnlock_of_taken taken body, if_pos wrong]
  · have row := exec_maintUnlock_of_taken taken body
    rw [if_neg (by rw [inRange]; simp only [Bool.true_eq_false, false_or]; omega)] at row
    refine ⟨fun none => ?_, fun k record hold => ?_, fun k record calm => ?_⟩
    · rw [row, none]
    · rw [row, record]
      exact congrArg _ (if_pos hold)
    · rw [row, record]
      dsimp only
      rw [if_neg (by simp [calm]), State.commanded_maintenance (s := s.taken) record calm]
  · rw [exec_maintenanceExpiry_of_lock record, if_pos ((timerDue_iff _).2 due)]
  · rw [exec_maintenanceExpiry_of_lock record, if_neg fun due => running ((timerDue_iff _).1 due)]

/-! ## The door (R58) -/

section

variable {s : State} {it : RingItem} {e : NodeEntry} {l : Lock} {a : Nat} {d : DoorState}

theorem exec_doorState_of_offers (h : s.offers it 0x30#8 e) :
    exec .doorState s = .next (s.popRing.doorOf it.src it.payload) :=
  congrArg Host.Outcome.next (State.takeHead_offers h _)

theorem parseDoor_none {p : List Byte} (opened : p ≠ [0x01#8]) (closed : p ≠ [0x02#8]) : parseDoor p = none := by
  match p with
  | [] => rfl
  | [b] =>
    have first : b ≠ 0x01#8 := by simpa using opened
    have second : b ≠ 0x02#8 := by simpa using closed
    exact (if_neg first).trans (if_neg second)
  | _ :: _ :: _ => rfl

theorem State.doorOf_unheard {p : List Byte} (unheard : parseDoor p = none ∨ s.lock a = none) : s.doorOf a p = s := by
  unfold State.doorOf
  rcases unheard with none | none <;> rw [none]
  cases parseDoor p <;> rfl

theorem State.doorOf_same {p : List Byte} (parsed : parseDoor p = some d) (record : s.lock a = some l) (same : l.door = d) :
    s.doorOf a p = s := by
  unfold State.doorOf
  rw [parsed, record]
  exact if_pos same

theorem State.doorOf_moved {p : List Byte} (parsed : parseDoor p = some d) (record : s.lock a = some l) (other : l.door ≠ d) :
    s.doorOf a p = match s.hatchOfLock a with
      | some h => (s.setLock a (l.doorMoved d)).engineDoor h d
      | none => s.setLock a (l.doorMoved d) := by
  unfold State.doorOf
  rw [parsed, record]
  exact if_neg other

end

/-- Settles O35: a report by the door state it finds, and the held timer by its mark. -/
theorem doorReportsMoveTheDoor : Obligations.DoorReportsMoveTheDoor := by
  refine ⟨?_, ?_⟩
  · intro s it e offered same
    rw [exec_doorState_of_offers offered]
    have lock : s.popRing.lock it.src = s.lock it.src := by simp [State.lock]
    rcases same with none | ⟨opened, closed⟩ | ⟨l, record, ⟨payload, door⟩ | ⟨payload, door⟩⟩
    · rw [State.doorOf_unheard (.inr (lock.trans none))]
    · rw [State.doorOf_unheard (.inl (parseDoor_none opened closed))]
    · rw [State.doorOf_same (by rw [payload]; rfl) (lock.trans record) door]
    · rw [State.doorOf_same (by rw [payload]; rfl) (lock.trans record) door]
  · intro s it e l a
    refine ⟨fun offered record alone => ?_, fun record running => ?_, fun record due => ?_⟩
    · have found : s.popRing.lock it.src = some l := (by simp [State.lock] : s.popRing.lock it.src = s.lock it.src).trans record
      have none : s.popRing.hatchOfLock it.src = none :=
        (by simp [State.hatchOfLock] : s.popRing.hatchOfLock it.src = s.hatchOfLock it.src).trans alone
      refine ⟨fun payload other => ?_, fun payload other => ?_, fun payload same => ?_, fun payload same => ?_⟩ <;>
        rw [exec_doorState_of_offers offered, payload]
      · rw [State.doorOf_moved (d := .opened) rfl found other, none]
        rfl
      · rw [State.doorOf_moved (d := .closed) rfl found other, none]
        rfl
      · rw [State.doorOf_same (d := .opened) rfl found same]
      · rw [State.doorOf_same (d := .closed) rfl found same]
    · refine congrArg Host.Outcome.next ?_
      rw [record]
      exact if_neg fun due => running ((timerDue_iff _).1 due)
    · have row : exec (.doorHeldTimerExpiry a) s
          = .next (if l.heldMark then s.setLock a { l with doorTimer := none, heldMark := true }
            else (s.setLock a { l with doorTimer := none, heldMark := true }).post (.doorHeld a l.commanded l.claims)) := by
        refine congrArg Host.Outcome.next ?_
        rw [record]
        exact if_pos ((timerDue_iff _).2 due)
      refine ⟨fun fresh => by rw [row, if_neg (by simp [fresh])], fun marked => ?_⟩
      rw [row, if_pos marked]
      cases l
      cases marked
      rfl

end Sys2Proof.Machine
end

section
/-! PROOFS about the detectors and the fire state, the countdown, FIRE_RESET, ISOLATE and RESTORE (R96 to R116). -/

namespace Sys2Proof.Machine

/-! ## A change of fire state (R116, R117) -/

section

variable {s : State} {z : Nat}

theorem State.setFire_setFire (s : State) (z : Nat) (f g : Fire) : (s.setFire z f).setFire z g = s.setFire z g :=
  congrArg (fun l => { s with fz := { s.fz with fire := l } }) (List.set_set f)

/-- The record is changed, the notice posted, and the change handed on. -/
theorem State.changeFire_eq (place : z < s.fz.fire.length) (c : FireCause) (a : Option Nat) (f : Fire → Fire) :
    s.changeFire z c a f = (let g := f (s.fire z)
      ((s.setFire z g).post (.fireState z (s.fire z).state g.state c a g.remaining g.releaseFault g.unconfirmed g.knock.length
        g.alarm.length)).handOn z (s.fire z).state) := by
  unfold State.changeFire State.postFireState
  rw [State.fire_setFire_same place]

theorem State.healthyCount_confirms (state : (s.fire z).state = .preAlarm) {n : Nat} (few : n ≤ 1) :
    s.healthyCount z n = s.confirmFire z .healthyCount none := if_pos ⟨state, few⟩

theorem State.healthyCount_still {n : Nat} (still : (s.fire z).state ≠ .preAlarm ∨ 2 ≤ n) : s.healthyCount z n = s :=
  if_neg fun h => still.elim (fun other => other h.1) (fun many => by omega)

end

theorem State.restoreDetector_unzoned {s : State} {z d : Nat} (none : s.zone z = none) : s.restoreDetector z d = s :=
  if_pos (by rw [none]; rfl)

theorem State.restoreDetector_zoned {s : State} {z d : Nat} {e : ZoneEntry} (zone : s.zone z = some e) :
    s.restoreDetector z d = s.setFire z { s.fire z with alarm := setErase (s.fire z).alarm d } :=
  if_neg (by rw [zone]; exact Bool.false_ne_true)

/-! ## An alarm (R97 to R99) -/

/-- The record with a detector in its sets (R97). -/
def Fire.heard (f : Fire) (d : Nat) : Fire :=
  { f with alarm := setInsert f.alarm d, knock := (if f.state = .isolated then f.knock else setInsert f.knock d) }

/-- The state after a DET_ALARM of a detector, by the healthy count, in a zone without a release line (R97 to R99). -/
def Fire.alarmed (f : Fire) (d healthy : Nat) : FireState :=
  match f.state with
  | .normal => if 2 ≤ healthy then .preAlarm else .confirmed
  | .preAlarm => if d ∈ f.knock then .preAlarm else .confirmed
  | .confirmed => .confirmed
  | .countdown => .countdown
  | .held => .held
  | .released => .released
  | .isolated => .isolated

section

variable {s : State} {z d : Nat} {e : ZoneEntry}

/-- The sets of the zone with the detector in them. -/
def State.inSets (s : State) (z d : Nat) : State := s.setFire z ((s.fire z).heard d)

theorem State.alarm_eq (zone : s.zone z = some e) : s.alarm z d = (match (s.fire z).state with
    | .normal => (s.inSets z d).firstAlarm z d
    | .preAlarm => if d ∈ (s.fire z).knock then s.inSets z d else (s.inSets z d).confirmFire z .doubleKnock (some d)
    | .confirmed | .countdown | .held | .released | .isolated => s.inSets z d) :=
  (if_neg (by rw [zone]; exact Bool.false_ne_true)).trans rfl

theorem State.alarm_many (zone : s.zone z = some e) (normal : (s.fire z).state = .normal) (many : 2 ≤ s.healthy z) :
    s.alarm z d = (s.inSets z d).changeFire z .detAlarm (some d) (fun f => { f with state := .preAlarm }) := by
  rw [State.alarm_eq zone, normal]
  exact if_pos many

theorem State.alarm_few (zone : s.zone z = some e) (normal : (s.fire z).state = .normal) (few : ¬ 2 ≤ s.healthy z) :
    s.alarm z d = (s.inSets z d).confirmFire z .singleKnock (some d) := by
  rw [State.alarm_eq zone, normal]
  exact if_neg few

theorem State.alarm_repeated (zone : s.zone z = some e) (pre : (s.fire z).state = .preAlarm) (known : d ∈ (s.fire z).knock) :
    s.alarm z d = s.inSets z d := by
  rw [State.alarm_eq zone, pre]
  exact if_pos known

theorem State.alarm_second (zone : s.zone z = some e) (pre : (s.fire z).state = .preAlarm) (fresh : d ∉ (s.fire z).knock) :
    s.alarm z d = (s.inSets z d).confirmFire z .doubleKnock (some d) := by
  rw [State.alarm_eq zone, pre]
  exact if_neg fresh

theorem State.alarm_later (zone : s.zone z = some e) (normal : (s.fire z).state ≠ .normal)
    (pre : (s.fire z).state ≠ .preAlarm) : s.alarm z d = s.inSets z d := by
  rw [State.alarm_eq zone]
  cases state : (s.fire z).state
  case normal => exact absurd state normal
  case preAlarm => exact absurd state pre
  all_goals rfl

theorem State.alarm_unzoned (none : s.zone z = none) : s.alarm z d = s := if_pos (by rw [none]; rfl)

theorem State.inSets_size (s : State) (z d : Nat) : (s.inSets z d).fz.fire.length = s.fz.fire.length :=
  (State.FireRuns.setFire s z _).size

theorem State.inSets_same (place : z < s.fz.fire.length) : (s.inSets z d).fire z = (s.fire z).heard d :=
  State.fire_setFire_same place _

theorem Fire.heard_alarmed {f : Fire} {n : Nat} (stays : f.alarmed d n = f.state) :
    ({ f.heard d with state := f.alarmed d n } : Fire) = f.heard d := by
  rw [stays]
  rfl

/-- The record of the zone after an alarm, but for its release flags. -/
theorem State.alarm_same (place : z < s.fz.fire.length) (zone : s.zone z = some e) (lineless : e.fire.line = none) :
    ((s.alarm z d).fire z).core
      = ({ (s.fire z).heard d with state := (s.fire z).alarmed d (s.healthy z) } : Fire).core := by
  have size : z < (s.inSets z d).fz.fire.length := by
    rw [State.inSets_size]
    exact place
  have confirmed (c : FireCause) : (((s.inSets z d).confirmFire z c (some d)).fire z).core
      = ({ (s.fire z).heard d with state := .confirmed } : Fire).core := by
    rw [State.confirmFire_lineless_same size (s := s.inSets z d) zone lineless, State.inSets_same place]
  have stays (still : s.alarm z d = s.inSets z d) (same : (s.fire z).alarmed d (s.healthy z) = (s.fire z).state) :
      ((s.alarm z d).fire z).core = ({ (s.fire z).heard d with state := (s.fire z).alarmed d (s.healthy z) } : Fire).core := by
    rw [Fire.heard_alarmed same, still, State.inSets_same place]
  cases state : (s.fire z).state
  case normal =>
    by_cases many : 2 ≤ s.healthy z
    · rw [State.alarm_many zone state many, State.changeFire_same size, State.inSets_same place]
      simp [Fire.alarmed, state, many]
    · rw [State.alarm_few zone state many, confirmed]
      simp [Fire.alarmed, state, many]
  case preAlarm =>
    by_cases known : d ∈ (s.fire z).knock
    · exact stays (State.alarm_repeated zone state known) (by simp [Fire.alarmed, state, known])
    · rw [State.alarm_second zone state known, confirmed]
      simp [Fire.alarmed, state, known]
  all_goals exact stays (State.alarm_later zone (by simp [state]) (by simp [state])) (by simp [Fire.alarmed, state])

/-- A DET_ALARM that changes the fire state: each change as its notice tells it. -/
theorem State.alarm_changes (place : z < s.fz.fire.length) (zone : s.zone z = some e) (lineless : e.fire.line = none) :
    let f := s.fire z
    let changed (after : FireState) (why : FireCause) : Prop :=
      let g : Fire := { f with state := after, alarm := setInsert f.alarm d, knock := setInsert f.knock d }
      s.alarm z d = ((s.setFire z g).post (.fireState z f.state after why (some d) g.remaining g.releaseFault g.unconfirmed
        g.knock.length g.alarm.length)).handOn z f.state
    (f.state = .normal → 2 ≤ s.healthy z → changed .preAlarm .detAlarm)
      ∧ (f.state = .normal → s.healthy z < 2 → changed .confirmed .singleKnock)
      ∧ (f.state = .preAlarm → d ∉ f.knock → changed .confirmed .doubleKnock) := by
  intro f changed
  have size : z < (s.inSets z d).fz.fire.length := by
    rw [State.inSets_size]
    exact place
  have told (other : f.state ≠ .isolated) (after : FireState) (why : FireCause) :
      (s.inSets z d).changeFire z why (some d) (fun g => { g with state := after })
        = (let g : Fire := { f with state := after, alarm := setInsert f.alarm d, knock := setInsert f.knock d }
          ((s.setFire z g).post (.fireState z f.state after why (some d) g.remaining g.releaseFault g.unconfirmed
            g.knock.length g.alarm.length)).handOn z f.state) := by
    rw [State.changeFire_eq size, State.inSets_same place]
    unfold State.inSets
    dsimp only
    rw [State.setFire_setFire]
    simp only [Fire.heard, if_neg other, f]
  refine ⟨fun state many => ?_, fun state few => ?_, fun state fresh => ?_⟩ <;>
    have other : f.state ≠ .isolated := by simp [state]
  · exact (State.alarm_many zone state many).trans (told other .preAlarm .detAlarm)
  · exact ((State.alarm_few zone state (Nat.not_le.2 few)).trans
      (State.confirmFire_lineless (s := s.inSets z d) zone lineless _ _)).trans (told other .confirmed .singleKnock)
  · exact ((State.alarm_second zone state fresh).trans
      (State.confirmFire_lineless (s := s.inSets z d) zone lineless _ _)).trans (told other .confirmed .doubleKnock)

end

section

variable {s : State} {it : RingItem} {e : NodeEntry}

theorem exec_detAlarm_of_offers (h : s.offers it 0x10#8 e) : exec .detAlarm s
    = .next (if e.cls = .detector then s.popRing.alarm e.zone it.src else s.popRing) := by
  refine congrArg Host.Outcome.next ((State.takeHead_offers h _).trans ?_)
  rw [State.popRing_node, h.node_eq]

theorem exec_detRestore_of_offers (h : s.offers it 0x11#8 e) : exec .detRestore s
    = .next (if e.cls = .detector then s.popRing.restoreDetector e.zone it.src else s.popRing) := by
  refine congrArg Host.Outcome.next ((State.takeHead_offers h _).trans ?_)
  rw [State.popRing_node, h.node_eq]

theorem State.popRing_fire (s : State) (z : Nat) : s.popRing.fire z = s.fire z := by simp [State.fire]

theorem State.popRing_healthy (s : State) (z : Nat) : s.popRing.healthy z = s.healthy z := by simp [State.healthy]

end

/-- Settles O28: an alarm's record, frame and notice; the rows' guards; the fall of the healthy count. -/
theorem detectorsMoveTheFireState : Obligations.DetectorsMoveTheFireState := by
  refine ⟨?_, ?_, ?_, ?_, ?_⟩
  · intro s it e ze shaped offered detector small zone lineless f
    have place : e.zone < s.popRing.fz.fire.length := by
      rw [show s.popRing.fz = s.fz by simp, State.shaped_fire_length shaped]
      exact small
    have zoned : s.popRing.zone e.zone = some ze := zone
    have row : exec .detAlarm s = .next (s.popRing.alarm e.zone it.src) := by
      rw [exec_detAlarm_of_offers offered, if_pos detector]
    have runs := State.FireRuns.alarm s.popRing e.zone it.src
    have record := State.alarm_same (d := it.src) place zoned lineless
    have changes := State.alarm_changes (d := it.src) place zoned lineless
    rw [State.popRing_fire, State.popRing_healthy] at record changes
    refine ⟨_, row, Fire.alarm_of_core record, Fire.knock_of_core record, (Fire.remaining_of_core record :), ?_,
      runs.nt.trans (by simp), runs.zt.trans (by simp), runs.cu.trans (by simp), runs.cs.trans (by simp),
      Fire.state_of_core record, changes⟩
    intro y other
    rw [runs.states other, State.popRing_fire]
  · intro p row s it e offered other
    simp only [List.mem_cons, List.not_mem_nil, or_false] at row
    rcases row with rfl | rfl
    · rw [exec_detAlarm_of_offers offered]
      refine congrArg Host.Outcome.next (ite_eq_right_iff.2 fun detector => ?_)
      exact State.alarm_unzoned (other.resolve_left (not_not_intro detector))
    · rw [exec_detRestore_of_offers offered]
      refine congrArg Host.Outcome.next (ite_eq_right_iff.2 fun detector => ?_)
      exact State.restoreDetector_unzoned (other.resolve_left (not_not_intro detector))
  · intro s it e offered detector
    have row : exec .detRestore s = .next (s.popRing.restoreDetector e.zone it.src) := by
      rw [exec_detRestore_of_offers offered, if_pos detector]
    refine ⟨fun none => by rw [row, State.restoreDetector_unzoned (s := s.popRing) none], fun ze zone => ?_⟩
    rw [row, State.restoreDetector_zoned (s := s.popRing) zone, State.popRing_fire]
    rfl
  · intro s z n ze shaped small zone lineless f
    have place : z < s.fz.fire.length := by
      rw [State.shaped_fire_length shaped]
      exact small
    refine ⟨fun pre few => ?_, State.healthyCount_still⟩
    rw [State.healthyCount_confirms pre few]
    refine ⟨Fire.state_of_core (State.confirmFire_lineless_same place zone lineless _ _),
      fun y other => (State.FireRuns.confirmFire s z _ _).states other, ?_⟩
    rw [State.confirmFire_lineless zone lineless, State.changeFire_eq place, show (s.fire z).state = .preAlarm from pre]
  · intro s z why a g shaped small
    exact State.changeFire_eq (by rw [State.shaped_fire_length shaped]; exact small) why a _

end Sys2Proof.Machine
end

section
/-! PROOFS about the countdown, ISOLATE and RESTORE (R104 to R108, R113, R115). -/

namespace Sys2Proof.Machine

/-! ## FIRE_ACTIVE and the fault output after a change (R52, R119) -/

section

variable {s : State} {z : Nat}

theorem State.Told.active (told : s.Told) (place : z < s.fz.fire.length) (counting : (s.fire z).state.isCounting = true) :
    s.fz.fireActive = true := by
  rw [s.told_iff.1 told, List.any_eq_true]
  refine ⟨(s.fire z).state, List.mem_map.2 ⟨s.fire z, ?_, rfl⟩, counting⟩
  have found : s.fire z = s.fz.fire[z] := by simp [State.fire, place]
  rw [found]
  exact List.getElem_mem place

theorem State.faultCondition_of_releaseFault (small : z < 16) (faulted : (s.fire z).releaseFault = true) :
    s.faultCondition = true := by
  have listed : z ∈ zoneNumbers := by simpa [zoneNumbers] using small
  have some : zoneNumbers.any (fun y => s.inTrouble y || (s.fire y).releaseFault) = true :=
    List.any_eq_true.2 ⟨z, listed, by simp [faulted]⟩
  simp [State.faultCondition, some]

theorem State.loadCountdown_told (s : State) (z : Nat) (c : FireCause) : (s.loadCountdown z c).Told := by
  unfold State.loadCountdown
  dsimp only
  exact iteInduction (fun _ => State.Told.handOn _ _ _) (fun _ => State.Told.handOn _ _ _)

theorem State.dischargeOk_iff {e : ZoneEntry} (zone : s.zone z = some e) :
    s.dischargeOk z = true ↔ e.fire.checkLine = none ∨ (s.conditions z).discharge = true := by
  unfold State.dischargeOk
  rw [zone]
  simp

end

/-! ## The discharge check (R104 to R106) -/

section

variable {s : State} {z q : Nat} {e : ZoneEntry}

theorem State.confirmFire_passed (zone : s.zone z = some e) (line : e.fire.line = some q)
    (passed : e.fire.checkLine = none ∨ (s.conditions z).discharge = true) (c : FireCause) (a : Option Nat) :
    s.confirmFire z c a
      = (s.changeFire z c a (fun f => { f with state := .confirmed })).loadCountdown z .countdownLoaded := by
  have runs := State.FireRuns.changeFire s z c a (fun f => { f with state := .confirmed })
  have zoned := (runs.zone z).trans zone
  refine (if_neg ?_).trans (if_pos ?_)
  · rw [State.releaseLine_eq zoned, line]
    exact Bool.false_ne_true
  · rw [State.dischargeOk_iff zoned, runs.conditionsOf]
    exact passed

theorem State.confirmFire_failed (zone : s.zone z = some e) (line : e.fire.line = some q)
    (failed : ¬ (e.fire.checkLine = none ∨ (s.conditions z).discharge = true)) (c : FireCause) (a : Option Nat) :
    s.confirmFire z c a = (let u := s.changeFire z c a (fun f => { f with state := .confirmed })
      ((u.setFire z { u.fire z with releaseFault := true }).postReleaseFault z true).evalFault) := by
  have runs := State.FireRuns.changeFire s z c a (fun f => { f with state := .confirmed })
  have zoned := (runs.zone z).trans zone
  refine (if_neg ?_).trans (if_neg ?_)
  · rw [State.releaseLine_eq zoned, line]
    exact Bool.false_ne_true
  · rw [State.dischargeOk_iff zoned, runs.conditionsOf]
    exact failed

end

/-- Settles O29: a confirmation by its discharge check, and the policy of an abort released. -/
theorem countdownIsLoadedAndResumed : Obligations.CountdownIsLoadedAndResumed := by
  refine ⟨?_, ?_⟩
  · intro s z q ze cause a shaped small zone line t passed
    have place : z < s.fz.fire.length := by
      rw [State.shaped_fire_length shaped]
      exact small
    have runs := State.FireRuns.changeFire s z cause a (fun f => { f with state := .confirmed })
    have core := State.changeFire_same place cause a (fun f => { f with state := .confirmed })
    obtain ⟨u, isU⟩ : ∃ u, u = s.changeFire z cause a (fun f => { f with state := .confirmed }) := ⟨_, rfl⟩
    rw [← isU] at runs core
    have size : z < u.fz.fire.length := by
      rw [runs.size]
      exact place
    have loads (ok : passed) (after : FireState)
        (by_abort : (if (u.conditions z).abort then .held else .countdown) = after) (counting : after.isCounting = true) :
        (t.fire z).state = after ∧ (t.fire z).remaining = some (10 * ze.fire.delay) ∧ t.fz.fireActive = true := by
      have load : t = u.loadCountdown z .countdownLoaded := isU ▸ State.confirmFire_passed zone line ok cause a
      have loaded := State.loadCountdown_same size ((runs.zone z).trans zone) .countdownLoaded
      rw [by_abort, ← load] at loaded
      have state : (t.fire z).state = after := Fire.state_of_core loaded
      refine ⟨state, (Fire.remaining_of_core loaded :), ?_⟩
      refine State.Told.active (load ▸ State.loadCountdown_told u z _) (z := z) ?_ (by rw [state]; exact counting)
      rw [load, (State.FireRuns.loadCountdown u z _).size]
      exact size
    refine ⟨fun ok quiet => loads ok .countdown ?_ rfl, fun ok abort => loads ok .held ?_ rfl, fun failed => ?_⟩
    · rw [runs.conditionsOf, quiet]
      rfl
    · rw [runs.conditionsOf, abort]
      rfl
    · have faults : t = ((u.setFire z { u.fire z with releaseFault := true }).postReleaseFault z true).evalFault :=
        isU ▸ State.confirmFire_failed zone line failed cause a
      have record : t.fire z = { u.fire z with releaseFault := true } := by
        rw [faults]
        exact State.fire_setFire_same size _
      refine ⟨?_, ?_, ?_⟩
      · rw [record]
        exact Fire.state_of_core core
      · rw [record]
      · have stands : t.lu.fault = t.faultCondition := by rw [faults]; rfl
        rw [stands, State.faultCondition_of_releaseFault small (by rw [record])]
  · intro s z e shaped small zone held quiet
    have place : z < s.fz.fire.length := by
      rw [State.shaped_fire_length shaped]
      exact small
    have row : s.abortReleased z = (match e.fire.policy with
        | .restart => s.loadCountdown z .abortReleased
        | .resume => s.changeFire z .abortReleased none (fun f => { f with state := .countdown, phase := 0 })) := by
      refine (if_pos held).trans ?_
      simp only [zone] <;> rfl
    rw [row]
    cases e.fire.policy with
    | resume =>
      have core := State.changeFire_same place .abortReleased none (fun f => { f with state := .countdown, phase := 0 })
      exact ⟨Fire.state_of_core core, (Fire.remaining_of_core core :)⟩
    | restart =>
      have core := State.loadCountdown_same place zone .abortReleased
      rw [quiet] at core
      exact ⟨Fire.state_of_core core, Fire.remaining_of_core core⟩

/-! ## ISOLATE and RESTORE (R113, R115) -/

section

variable {s : State} {d : Directive} {b : Byte} {e : ZoneEntry}

theorem State.FireRuns.conclude (s : State) (z : Nat) (d : Directive) (r : Result) (b : ReplyBody) :
    State.FireRuns z s (s.conclude d r b) :=
  State.FireRuns.of_same (by simp) (by simp) (by simp) (by simp) (by simp) (by simp) (by simp) (by simp) z

theorem State.fire_conclude (s : State) (d : Directive) (r : Result) (b : ReplyBody) (z : Nat) :
    (s.conclude d r b).fire z = s.fire z := State.fire_congr (by simp) z

theorem exec_isolate_of_taken (taken : s.hasTakenVerified d) (body : d.body = [0x31#8, b]) (small : b.toNat ≤ 15)
    (zone : s.zone b.toNat = some e) : exec .isolate s = .next (match (s.fire b.toNat).state with
      | .normal | .preAlarm => (s.taken.isolateZone b.toNat).conclude d .ok .empty
      | .isolated => s.taken.conclude d .ok .empty
      | .confirmed | .countdown | .held | .released => s.taken.conclude d .active .empty) := by
  refine congrArg Host.Outcome.next ((State.takeDirective_coded_verified taken body (by decide) _ _).trans ?_)
  rw [State.formed_coded 2 body rfl, leNat_one]
  dsimp only
  rw [if_neg (Nat.not_lt.2 small), if_neg (by rw [show s.taken.zone b.toNat = some e from zone]; exact Bool.false_ne_true),
    show s.taken.fire b.toNat = s.fire b.toNat from rfl]
  cases (s.fire b.toNat).state <;> rfl

theorem exec_restore_of_taken (taken : s.hasTakenVerified d) (body : d.body = [0x32#8, b]) (small : b.toNat ≤ 15) :
    exec .restore s = .next (if (s.fire b.toNat).state = .isolated then (s.taken.restoreZone b.toNat).conclude d .ok .empty
      else s.taken.conclude d .badState .empty) := by
  refine congrArg Host.Outcome.next ((State.takeDirective_coded_verified taken body (by decide) _ _).trans ?_)
  rw [State.formed_coded 2 body rfl, leNat_one]
  dsimp only
  rw [if_neg (Nat.not_lt.2 small), show s.taken.fire b.toNat = s.fire b.toNat from rfl]
  split <;> rfl

end

/-- The zone back in NORMAL with its knock set emptied, before the alarm is replayed (R115: step 1). -/
def State.restored (s : State) (z : Nat) : State :=
  s.changeFire z .restore none (fun f => { f with state := .normal, knock := [] })

section

variable {s : State} {z : Nat} {e : ZoneEntry}

theorem State.FireRuns.replayAlarm (s : State) (z : Nat) : State.FireRuns z s (s.replayAlarm z) := by
  unfold State.replayAlarm
  cases (s.fire z).alarm with
  | nil => exact State.FireRuns.refl z s
  | cons a l => exact State.FireRuns.alarm s z a

theorem State.FireRuns.restoreZone (s : State) (z : Nat) : State.FireRuns z s (s.restoreZone z) := by
  have replayed : State.FireRuns z s ((s.restored z).replayAlarm z) :=
    (State.FireRuns.changeFire ..).trans (State.FireRuns.replayAlarm _ z)
  have panel := replayed.trans (iteInduction (c := (((s.restored z).replayAlarm z).conditions z).panel = true)
    (motive := State.FireRuns z _) (fun _ => State.FireRuns.panelActive _ z) (fun _ => State.FireRuns.refl z _))
  exact panel.trans (iteInduction (c := _ = true) (motive := State.FireRuns z _)
    (fun _ => State.FireRuns.manualActive _ z) (fun _ => State.FireRuns.refl z _))

theorem State.restored_same (place : z < s.fz.fire.length) :
    ((s.restored z).fire z).core = ({ s.fire z with state := .normal, knock := [] } : Fire).core :=
  State.changeFire_same place ..

/-- With neither condition active RESTORE ends with the replay of the alarm. -/
theorem State.restoreZone_calm (panel : (s.conditions z).panel = false) (manual : (s.conditions z).manual = false) :
    s.restoreZone z = (s.restored z).replayAlarm z := by
  have runs : State.FireRuns z s ((s.restored z).replayAlarm z) :=
    (State.FireRuns.changeFire ..).trans (State.FireRuns.replayAlarm _ z)
  have still : s.restoreZone z = (let s3 := if (((s.restored z).replayAlarm z).conditions z).panel
      then ((s.restored z).replayAlarm z).panelActive z else (s.restored z).replayAlarm z
      if (s3.conditions z).manual then s3.manualActive z else s3) := rfl
  rw [still, runs.conditionsOf, panel, if_neg Bool.false_ne_true]
  dsimp only
  rw [runs.conditionsOf, manual, if_neg Bool.false_ne_true]

/-- An alarm that opens PRE_ALARM (R98). -/
theorem State.alarm_pre {d : Nat} (place : z < s.fz.fire.length) (zone : s.zone z = some e)
    (normal : (s.fire z).state = .normal) (many : 2 ≤ s.healthy z) :
    ((s.alarm z d).fire z).core = ({ (s.fire z).heard d with state := .preAlarm } : Fire).core := by
  rw [State.alarm_many zone normal many, State.changeFire_same (by rw [State.inSets_size]; exact place),
    State.inSets_same place]

/-- After the replay of an alarm the zone is in NORMAL, PRE_ALARM or CONFIRMED. -/
theorem State.replayAlarm_state (place : z < s.fz.fire.length) (zone : s.zone z = some e) (lineless : e.fire.line = none)
    (normal : (s.fire z).state = .normal) : ((s.replayAlarm z).fire z).state = .normal
      ∨ ((s.replayAlarm z).fire z).state = .preAlarm ∨ ((s.replayAlarm z).fire z).state = .confirmed := by
  unfold State.replayAlarm
  cases (s.fire z).alarm with
  | nil => exact .inl normal
  | cons a l =>
    refine .inr ?_
    have alarmed := Fire.state_of_core (State.alarm_same (d := a) place zone lineless)
    rw [show ((s.alarm z a).fire z).state = _ from alarmed]
    unfold Fire.alarmed
    rw [normal]
    by_cases many : 2 ≤ s.healthy z <;> simp [many]

/-- A zone in NORMAL, PRE_ALARM or CONFIRMED is CONFIRMED by a condition that is active. -/
theorem State.confirmIfCalm_confirmed (place : z < s.fz.fire.length) (zone : s.zone z = some e) (lineless : e.fire.line = none)
    (early : (s.fire z).state = .normal ∨ (s.fire z).state = .preAlarm ∨ (s.fire z).state = .confirmed) (c : FireCause) :
    ((if (s.fire z).state = .normal ∨ (s.fire z).state = .preAlarm then s.confirmFire z c none else s).fire z).state
      = .confirmed := by
  rw [State.confirmIfCalm_state place zone lineless]
  rcases early with state | state | state <;> rw [state]

/-- With a condition active RESTORE ends with the fire confirmed. -/
theorem State.restoreZone_confirms (place : z < s.fz.fire.length) (zone : s.zone z = some e) (lineless : e.fire.line = none)
    (active : (s.conditions z).panel = true ∨ (s.conditions z).manual = true) :
    ((s.restoreZone z).fire z).state = .confirmed := by
  obtain ⟨u, isU⟩ : ∃ u, u = (s.restored z).replayAlarm z := ⟨_, rfl⟩
  have first : State.FireRuns z s (s.restored z) := State.FireRuns.changeFire ..
  have runs : State.FireRuns z s u := isU ▸ first.trans (State.FireRuns.replayAlarm _ z)
  have early := State.replayAlarm_state (s := s.restored z) (by rw [first.size]; exact place) ((first.zone z).trans zone) lineless
    (Fire.state_of_core (State.restored_same place))
  rw [← isU] at early
  have size : z < u.fz.fire.length := by
    rw [runs.size]
    exact place
  have steps : s.restoreZone z = (let s3 := if (u.conditions z).panel then u.panelActive z else u
      if (s3.conditions z).manual then s3.manualActive z else s3) := by
    rw [isU]
    rfl
  rw [steps, runs.conditionsOf]
  by_cases panel : (s.conditions z).panel = true
  · rw [if_pos panel]
    dsimp only
    have second := State.FireRuns.panelActive u z
    have confirmed : ((u.panelActive z).fire z).state = .confirmed :=
      State.confirmIfCalm_confirmed size ((runs.zone z).trans zone) lineless early .panel
    rw [second.conditionsOf, runs.conditionsOf]
    split
    · exact State.confirmIfCalm_confirmed (s := u.panelActive z) (by rw [second.size]; exact size)
        ((second.zone z).trans ((runs.zone z).trans zone)) lineless (.inr (.inr confirmed)) .manualRelease
    · exact confirmed
  · rw [if_neg panel]
    dsimp only
    rw [runs.conditionsOf, if_pos (active.resolve_left panel)]
    exact State.confirmIfCalm_confirmed size ((runs.zone z).trans zone) lineless early .manualRelease

end

/-- Settles O32: each row by the state it finds; RESTORE by its alarm set and the two conditions. -/
theorem isolateAndRestoreMoveTheZone : Obligations.IsolateAndRestoreMoveTheZone := by
  intro s d b ze shaped taken small zone z f
  have place : z < s.taken.fz.fire.length := by
    rw [show s.taken.fz = s.fz from rfl, State.shaped_fire_length shaped]
    omega
  have frame {u : State} (runs : State.FireRuns z s.taken u) : (∀ y, y ≠ z →
      ((u.conclude d .ok .empty).fire y).state = (s.fire y).state) ∧ (u.conclude d .ok .empty).nt = s.nt
      ∧ (u.conclude d .ok .empty).zt = s.zt ∧ (u.conclude d .ok .empty).cu = s.cu ∧ (u.conclude d .ok .empty).cs = s.cs :=
    have ended := runs.trans (State.FireRuns.conclude u z d .ok .empty)
    ⟨fun y other => ended.states other, ended.nt, ended.zt, ended.cu, ended.cs⟩
  have restores (body : d.body = [0x32#8, b]) (isolated : f.state = .isolated) :
      exec .restore s = .next ((s.taken.restoreZone z).conclude d .ok .empty) := by
    rw [exec_restore_of_taken taken body small, if_pos isolated]
  have restored := State.FireRuns.restoreZone s.taken z
  have normal := State.restored_same place
  refine ⟨fun body early => ?_, fun body late => ?_, fun body isolated silent panel manual => ?_,
    fun a l body isolated alarm panel manual many => ?_, fun body isolated active lineless => ?_, fun body other => ?_⟩
  · have row : exec .isolate s = .next ((s.taken.isolateZone z).conclude d .ok .empty) := by
      rw [exec_isolate_of_taken taken body small zone]
      rcases early with state | state <;> rw [show (s.fire b.toNat).state = _ from state]
    have core := State.changeFire_same place .isolate none (fun f => { f with state := .isolated, knock := [] })
    refine ⟨_, row, ?_, ?_, ?_, frame (State.FireRuns.changeFire ..)⟩ <;> rw [State.fire_conclude]
    · exact Fire.state_of_core core
    · exact Fire.knock_of_core core
    · exact (Fire.alarm_of_core core :)
  · rw [exec_isolate_of_taken taken body small zone]
    rcases late with state | state | state | state <;> rw [show (s.fire b.toNat).state = _ from state]
  · have calm : s.taken.restoreZone z = s.taken.restored z := by
      rw [State.restoreZone_calm (s := s.taken) panel manual]
      unfold State.replayAlarm
      rw [show ((s.taken.restored z).fire z).alarm = _ from Fire.alarm_of_core normal]
      dsimp only
      rw [show (s.taken.fire z).alarm = [] from silent]
    refine ⟨_, restores body isolated, ?_, ?_, frame restored⟩ <;> rw [State.fire_conclude, calm]
    · exact Fire.state_of_core normal
    · exact Fire.knock_of_core normal
  · have first : State.FireRuns z s.taken (s.taken.restored z) := State.FireRuns.changeFire ..
    have alarms : s.taken.restoreZone z = (s.taken.restored z).alarm z a := by
      rw [State.restoreZone_calm (s := s.taken) panel manual]
      unfold State.replayAlarm
      rw [show ((s.taken.restored z).fire z).alarm = _ from Fire.alarm_of_core normal]
      dsimp only
      rw [show (s.taken.fire z).alarm = a :: l from alarm]
    have core := State.alarm_pre (d := a) (s := s.taken.restored z) (by rw [first.size]; exact place)
      ((first.zone z).trans zone) (Fire.state_of_core normal) (by unfold State.healthy; rw [first.nt]; exact many)
    refine ⟨_, restores body isolated, ?_, ?_, frame restored⟩ <;> rw [State.fire_conclude, alarms]
    · exact Fire.state_of_core core
    · rw [show (((s.taken.restored z).alarm z a).fire z).knock = _ from Fire.knock_of_core core]
      simp only [Fire.heard, show ((s.taken.restored z).fire z).state = _ from Fire.state_of_core normal,
        show ((s.taken.restored z).fire z).knock = _ from Fire.knock_of_core normal]
      rfl
  · refine ⟨_, restores body isolated, ?_, frame restored⟩
    rw [State.fire_conclude]
    exact State.restoreZone_confirms place zone lineless active
  · rw [exec_restore_of_taken taken body small, if_neg other]

end Sys2Proof.Machine
end

section
/-! PROOFS about orders that leave the list: CANCEL_ORDER and the quarantine of a released zone (R139, R158, R159). -/

namespace Sys2Proof.Machine

/-! ## A settled pick moves the queue and its own order (R155) -/

section

variable {s : State} {n : Nat} {o : Order}

theorem State.requestTx_withdraw (s : State) (display n : Nat) :
    ∃ l, s.requestTx (withdrawRequest display n) = { s with lif := l } := by
  unfold State.requestTx
  split
  · exact ⟨_, rfl⟩
  · rw [show (withdrawRequest display n).cls = .display from rfl, evictee_display]
    exact ⟨s.lif, rfl⟩

theorem State.setOrder_filter (same : o.number = n) :
    (s.setOrder o).ol.orders.filter (fun p => p.number ≠ n) = s.ol.orders.filter (fun p => p.number ≠ n) := by
  show (s.ol.orders.map (fun p => if p.number = o.number then o else p)).filter _ = _
  induction s.ol.orders with
  | nil => rfl
  | cons p l ih =>
    rw [List.map_cons, List.filter_cons, List.filter_cons, ih]
    by_cases moved : p.number = n
    · simp [moved, same]
    · simp [moved, same]

theorem State.settlePick_shape (s : State) (n : Nat) :
    ∃ orders l, s.settlePick n = { s with ol := { s.ol with orders := orders }, lif := l }
      ∧ orders.filter (fun p => p.number ≠ n) = s.ol.orders.filter (fun p => p.number ≠ n) := by
  cases found : s.order n with
  | none => exact ⟨s.ol.orders, s.lif, State.settlePick_none found, rfl⟩
  | some o =>
    have filtered := State.setOrder_filter (s := s) (o := { o with pick := .notSent }) (n := n) (State.order_number found :)
    cases pick : o.pick with
    | notSent => exact ⟨s.ol.orders, s.lif, State.settlePick_notSent found pick, rfl⟩
    | inFlight => exact ⟨s.ol.orders, s.lif, State.settlePick_inFlight found pick, rfl⟩
    | undelivered => exact ⟨_, s.lif, State.settlePick_undelivered found pick, filtered⟩
    | shown a =>
      obtain ⟨l, withdrawn⟩ := (s.setOrder { o with pick := .notSent }).requestTx_withdraw a n
      exact ⟨_, l, (State.settlePick_shown found pick).trans withdrawn, filtered⟩

/-- An order that leaves the list moves the list, the queue and its notice (R159). -/
theorem State.closeOrder_shape (order : s.order n = some o) (why : OrderReason) :
    ∃ l, s.closeOrder n why = ({ s with ol := { s.ol with orders := s.ol.orders.filter (fun p => p.number ≠ n) }, lif := l } : State).post
      (.orderClosed n (((s.cartridge o.index).map (·.label)).getD []) o.index o.courier o.state why) := by
  obtain ⟨orders, l, settled, kept⟩ := s.settlePick_shape n
  unfold State.closeOrder
  rw [order]
  dsimp only
  rw [settled, ← kept]
  exact ⟨_, rfl⟩

theorem State.closeOrder_none (none : s.order n = none) (why : OrderReason) : s.closeOrder n why = s := by
  unfold State.closeOrder
  rw [none]

theorem Order.find_filter (l : List Order) (n m : Nat) :
    (l.filter (fun p => p.number ≠ n)).find? (fun p => p.number = m)
      = if m = n then none else l.find? (fun p => p.number = m) := by
  rw [List.find?_filter]
  by_cases same : m = n
  · rw [if_pos same, List.find?_eq_none]
    intro p _
    simp only [decide_eq_true_eq]
    omega
  · rw [if_neg same]
    congr 1
    funext p
    by_cases number : p.number = m <;> simp [number, same]

theorem State.order_closeOrder (s : State) (n m : Nat) (why : OrderReason) :
    (s.closeOrder n why).order m = if m = n then none else s.order m := by
  cases order : s.order n with
  | none =>
    rw [State.closeOrder_none order]
    split
    · next same => rw [same, order]
    · rfl
  | some o =>
    obtain ⟨l, shape⟩ := State.closeOrder_shape order why
    rw [shape]
    exact Order.find_filter s.ol.orders n m

theorem State.cartridge_closeOrder (s : State) (n i : Nat) (why : OrderReason) :
    (s.closeOrder n why).cartridge i = s.cartridge i := by simp [State.cartridge]

theorem State.cartridge_setCartridge_same (s : State) (i : Nat) (c : Cartridge) : (s.setCartridge i c).cartridge i = some c :=
  Table.get_put_same _ _ _

theorem State.cartridge_setCartridge_other (s : State) {i j : Nat} (c : Cartridge) (other : j ≠ i) :
    (s.setCartridge i c).cartridge j = s.cartridge j := Table.get_put_other _ _ other

end

/-! ## CANCEL_ORDER (R158) -/

section

variable {s : State} {d : Directive} {n0 n1 : Byte} {n : Nat} {o : Order} {c : Cartridge}

theorem exec_cancelOrder_of_taken (taken : s.hasTakenVerified d) (body : d.body = [0x21#8, n0, n1]) :
    exec .cancelOrder s = .next
      (if n0.toNat + 256 * n1.toNat = 0 then s.taken.conclude d .range .empty
        else match s.order (n0.toNat + 256 * n1.toNat) with
          | none => s.taken.conclude d .notFound .empty
          | some o =>
            if o.state = .manifested then s.taken.conclude d .badState .empty
            else (s.taken.cancelOrder o).conclude d .ok (.cancelled o.state)) := by
  refine congrArg Host.Outcome.next ((State.takeDirective_coded_verified taken body (by decide) _ _).trans ?_)
  rw [State.formed_coded 3 body rfl, leNat_two]
  dsimp only
  rw [show s.taken.order = s.order from rfl]
  split
  · rfl
  · cases s.order (n0.toNat + 256 * n1.toNat) with
    | none => rfl
    | some o =>
      dsimp only
      split <;> rfl

theorem State.cancelOrder_eq (record : s.cartridge o.index = some c) :
    s.cancelOrder o = ((s.settlePick o.number).setCartridge o.index c.withoutOrder).closeOrder o.number .cancelled := by
  unfold State.cancelOrder
  dsimp only
  rw [show (s.settlePick o.number).cartridge o.index = s.cartridge o.index by simp [State.cartridge], record]

theorem State.order_settlePick_other (s : State) {n m : Nat} (other : m ≠ n) : (s.settlePick n).order m = s.order m := by
  obtain ⟨orders, l, settled, kept⟩ := s.settlePick_shape n
  have found := congrArg (List.find? (fun p : Order => p.number = m)) kept
  rw [Order.find_filter, Order.find_filter, if_neg other, if_neg other] at found
  rw [settled]
  exact found

theorem State.order_cancelOrder (record : s.cartridge o.index = some c) (m : Nat) :
    (s.cancelOrder o).order m = if m = o.number then none else s.order m := by
  rw [State.cancelOrder_eq record, State.order_closeOrder]
  split
  · rfl
  · next other => exact State.order_settlePick_other s other

theorem State.cartridge_cancelOrder (record : s.cartridge o.index = some c) :
    (s.cancelOrder o).cartridge o.index = some c.withoutOrder := by
  rw [State.cancelOrder_eq record, State.cartridge_closeOrder, State.cartridge_setCartridge_same]

end

/-- Settles O41: the row's checks, and what the cancelled order's way out of the list moves. -/
theorem cancelTakesTheOrderOut : Obligations.CancelTakesTheOrderOut := by
  intro s d n0 n1 taken body n s1
  have row := exec_cancelOrder_of_taken taken body
  refine ⟨fun zero => by rw [row, if_pos zero], fun some none => ?_, fun o some order manifested => ?_,
    fun o c some order free record => ?_⟩
  · rw [row, if_neg some, none]
  · rw [row, if_neg some, order]
    exact congrArg _ (if_pos manifested)
  · have accepted : exec .cancelOrder s = .next ((s1.cancelOrder o).conclude d .ok (.cancelled o.state)) := by
      rw [row, if_neg some, order]
      exact congrArg _ (if_neg free)
    have number : o.number = n := State.order_number order
    have orders (m : Nat) : ((s1.cancelOrder o).conclude d .ok (.cancelled o.state)).order m
        = if m = n then none else s.order m := by
      rw [State.order_congr (s := s1.cancelOrder o) (by simp), State.order_cancelOrder (s := s1) record, number]
      rfl
    have frame : (s1.cancelOrder o).nt = s.nt ∧ (s1.cancelOrder o).zt = s.zt ∧ (s1.cancelOrder o).lu = s.lu
        ∧ (s1.cancelOrder o).cu = s.cu ∧ (s1.cancelOrder o).pt = s.pt ∧ (s1.cancelOrder o).he0 = s.he0
        ∧ (s1.cancelOrder o).he1 = s.he1 ∧ (s1.cancelOrder o).cs = s.cs := by
      rw [State.cancelOrder_eq (s := s1) record]
      simp [s1, State.taken]
    refine ⟨_, accepted, (orders n).trans (if_pos rfl), fun m other => (orders m).trans (if_neg other), ?_, ?_⟩
    · have kept : ((s1.cancelOrder o).conclude d .ok (.cancelled o.state)).cartridge o.index
          = (s1.cancelOrder o).cartridge o.index := by simp [State.cartridge]
      rw [kept, State.cartridge_cancelOrder (s := s1) record]
      rfl
    · simp only [State.conclude_frame, frame, true_and, State.conclude_replies]
      exact ⟨_, List.mem_append_right _ (List.mem_singleton.2 rfl), rfl, rfl, rfl⟩

/-! ## The quarantine of a zone (R139) -/

/-- A record marked where its zone is released (R139). -/
def Cartridge.quarantinedIn (c : Cartridge) (z : Nat) : Bool :=
  c.state.inZone && !c.quarantine && (match c.state with
    | .staging | .ready => c.staging = some z
    | _ => c.homeZone = z)

/-- What the mark makes of a record (R126, R139). -/
def Cartridge.marked (c : Cartridge) : Cartridge :=
  match c.order with
  | some _ => { c.withoutOrder with quarantine := true }
  | none => { c with quarantine := true }

section

variable {s : State} {z i : Nat} {c : Cartridge}

theorem Cartridge.quarantinedIn_eq (s : State) (c : Cartridge) (z : Nat) :
    (c.state.inZone && !c.quarantine && decide (s.currentZone c = some z)) = c.quarantinedIn z := by
  unfold Cartridge.quarantinedIn State.currentZone
  cases c.state <;> simp [CartState.inZone]

theorem Table.keys_nodup {α : Type} {t : Table α} (w : Table.wf t = true) : (t.map (·.1)).Nodup := by
  induction t with
  | nil => exact List.nodup_nil
  | cons p t ih =>
    obtain ⟨below, rest⟩ := Table.wf_cons.1 w
    refine List.nodup_cons.2 ⟨fun mem => ?_, ih rest⟩
    obtain ⟨q, member, same⟩ := List.mem_map.1 mem
    exact absurd same (Nat.ne_of_gt (below q member))

theorem State.quarantineRecord_none {acc : State × Nat × Nat} (none : acc.1.cartridge i = none) :
    State.quarantineRecord z acc i = acc := by
  unfold State.quarantineRecord
  rw [none]

theorem State.quarantineRecord_kept {acc : State × Nat × Nat} (record : acc.1.cartridge i = some c)
    (kept : c.quarantinedIn z = false) : State.quarantineRecord z acc i = acc := by
  unfold State.quarantineRecord
  rw [record]
  dsimp only
  rw [Cartridge.quarantinedIn_eq, kept, if_neg Bool.false_ne_true]

theorem State.quarantineRecord_loose {acc : State × Nat × Nat} (record : acc.1.cartridge i = some c)
    (marked : c.quarantinedIn z = true) (loose : c.order = none) : State.quarantineRecord z acc i
      = (acc.1.setCartridge i c.marked, acc.2.1 + 1, acc.2.2) := by
  unfold State.quarantineRecord Cartridge.marked
  rw [record]
  dsimp only
  rw [Cartridge.quarantinedIn_eq, if_pos marked, loose]

theorem State.quarantineRecord_ordered {acc : State × Nat × Nat} {n : Nat} (record : acc.1.cartridge i = some c)
    (marked : c.quarantinedIn z = true) (ordered : c.order = some n) : State.quarantineRecord z acc i
      = ((acc.1.setCartridge i c.marked).closeOrder n .quarantine, acc.2.1 + 1, acc.2.2 + 1) := by
  unfold State.quarantineRecord Cartridge.marked
  rw [record]
  dsimp only
  rw [Cartridge.quarantinedIn_eq, if_pos marked, ordered]

/-- One record's step: its own record, no other, and the counts. -/
theorem State.quarantineRecord_step (z i : Nat) (acc : State × Nat × Nat) :
    ((State.quarantineRecord z acc i).1.cartridge i
        = (acc.1.cartridge i).map (fun c => if c.quarantinedIn z then c.marked else c))
      ∧ (∀ j, j ≠ i → (State.quarantineRecord z acc i).1.cartridge j = acc.1.cartridge j)
      ∧ (∀ n, acc.1.order n = none → (State.quarantineRecord z acc i).1.order n = none) := by
  cases record : acc.1.cartridge i with
  | none =>
    rw [State.quarantineRecord_none record]
    exact ⟨record, fun j _ => rfl, fun n h => h⟩
  | some c =>
    cases marked : c.quarantinedIn z with
    | false =>
      rw [State.quarantineRecord_kept record marked]
      exact ⟨by simp [record, marked], fun j _ => rfl, fun n h => h⟩
    | true =>
      cases order : c.order with
      | none =>
        rw [State.quarantineRecord_loose record marked order]
        exact ⟨by simp [State.cartridge_setCartridge_same, marked],
          fun j other => State.cartridge_setCartridge_other _ _ other, fun n h => h⟩
      | some m =>
        rw [State.quarantineRecord_ordered record marked order]
        refine ⟨?_, fun j other => ?_, fun n h => ?_⟩ <;> dsimp only
        · rw [State.cartridge_closeOrder, State.cartridge_setCartridge_same]
          simp [marked]
        · rw [State.cartridge_closeOrder, State.cartridge_setCartridge_other _ _ other]
        · rw [State.order_closeOrder]
          split
          · rfl
          · exact h

theorem State.quarantineRecord_closes {acc : State × Nat × Nat} {n : Nat} (record : acc.1.cartridge i = some c)
    (marked : c.quarantinedIn z = true) (ordered : c.order = some n) : (State.quarantineRecord z acc i).1.order n = none := by
  rw [State.quarantineRecord_ordered record marked ordered]
  exact (State.order_closeOrder _ _ _ _).trans (if_pos rfl)

/-- The records of a list of indexes worked: a record outside it stands, one inside is marked where its zone is released. -/
theorem State.cartridge_quarantine (z i : Nat) (l : List Nat) (distinct : l.Nodup) (acc : State × Nat × Nat) :
    (l.foldl (State.quarantineRecord z) acc).1.cartridge i
      = if i ∈ l then (acc.1.cartridge i).map (fun c => if c.quarantinedIn z then c.marked else c) else acc.1.cartridge i := by
  induction l generalizing acc with
  | nil => rfl
  | cons j l ih =>
    obtain ⟨fresh, rest⟩ := List.nodup_cons.1 distinct
    obtain ⟨own, others, -⟩ := State.quarantineRecord_step z j acc
    rw [List.foldl_cons, ih rest]
    by_cases same : i = j
    · subst same
      rw [if_neg fresh, if_pos (List.mem_cons_self ..), own]
    · rw [others i same]
      simp [same]

theorem State.order_quarantine (z n : Nat) (l : List Nat) (acc : State × Nat × Nat) (none : acc.1.order n = none) :
    (l.foldl (State.quarantineRecord z) acc).1.order n = Option.none := by
  induction l generalizing acc with
  | nil => exact none
  | cons j l ih => exact ih _ ((State.quarantineRecord_step z j acc).2.2 n none)

theorem State.order_quarantine_marked {n : Nat} (l : List Nat) (distinct : l.Nodup) (listed : i ∈ l) (acc : State × Nat × Nat)
    (record : acc.1.cartridge i = some c) (marked : c.quarantinedIn z = true) (ordered : c.order = some n) :
    (l.foldl (State.quarantineRecord z) acc).1.order n = none := by
  induction l generalizing acc with
  | nil => exact absurd listed List.not_mem_nil
  | cons j l ih =>
    obtain ⟨fresh, rest⟩ := List.nodup_cons.1 distinct
    by_cases same : i = j
    · subst same
      exact State.order_quarantine z n l _ (State.quarantineRecord_closes record marked ordered)
    · refine ih rest ((List.mem_cons.1 listed).resolve_left same) _ ?_
      rw [(State.quarantineRecord_step z j acc).2.1 i same, record]

/-- The two counts of the notice (R139). -/
theorem State.quarantine_counts (z : Nat) (l : Table Cartridge) (distinct : (l.map (·.1)).Nodup) (acc : State × Nat × Nat)
    (records : ∀ p ∈ l, acc.1.cartridge p.1 = some p.2) :
    ((l.map (·.1)).foldl (State.quarantineRecord z) acc).2
      = (acc.2.1 + (l.filter (fun p => p.2.quarantinedIn z)).length,
        acc.2.2 + ((l.filter (fun p => p.2.quarantinedIn z)).filter (·.2.order.isSome)).length) := by
  induction l generalizing acc with
  | nil => rfl
  | cons p l ih =>
    obtain ⟨fresh, rest⟩ := List.nodup_cons.1 distinct
    have record := records p (List.mem_cons_self ..)
    have later : ∀ q ∈ l, (State.quarantineRecord z acc p.1).1.cartridge q.1 = some q.2 := fun q mem => by
      rw [(State.quarantineRecord_step z p.1 acc).2.1 q.1 fun same => fresh (List.mem_map.2 ⟨q, mem, same⟩)]
      exact records q (List.mem_cons_of_mem _ mem)
    rw [List.map_cons, List.foldl_cons, ih rest _ later]
    cases marked : p.2.quarantinedIn z with
    | false =>
      rw [State.quarantineRecord_kept record marked]
      simp [marked]
    | true =>
      cases order : p.2.order with
      | none =>
        rw [State.quarantineRecord_loose record marked order]
        simp [marked, order]
        omega
      | some n =>
        rw [State.quarantineRecord_ordered record marked order]
        simp [marked, order]
        omega

theorem State.cartridge_quarantineZone {i : Nat} {c : Cartridge} (w : Table.wf s.cat.cartridges = true)
    (record : s.cartridge i = some c) :
    (s.quarantineZone z).cartridge i = some (if c.quarantinedIn z then c.marked else c) := by
  have listed : i ∈ s.cat.cartridges.map (·.1) := List.mem_map.2 ⟨(i, c), Table.get_mem record, rfl⟩
  refine (State.cartridge_quarantine z i _ (Table.keys_nodup w) (s, 0, 0)).trans ?_
  rw [if_pos listed, show (s, 0, 0).1.cartridge i = some c from record, Option.map_some]

theorem Cartridge.quarantinedIn_iff (c : Cartridge) (z : Nat) :
    c.quarantinedIn z = true ↔ (((c.state = .shelved ∨ c.state = .ordered ∨ c.state = .picked) ∧ c.homeZone = z)
      ∨ ((c.state = .staging ∨ c.state = .ready) ∧ c.staging = some z)) ∧ c.quarantine = false := by
  unfold Cartridge.quarantinedIn
  cases c.state <;> cases c.quarantine <;> simp [CartState.inZone]

end

/-- Settles O38: the fold over the records, one at a time, and an order's way out of the list. -/
theorem releaseQuarantinesTheZone : Obligations.ReleaseQuarantinesTheZone := by
  refine ⟨?_, ?_, ?_⟩
  · intro s z i c w record here
    have listed : i ∈ s.cat.cartridges.map (·.1) := List.mem_map.2 ⟨(i, c), Table.get_mem record, rfl⟩
    have marks := State.cartridge_quarantineZone (z := z) w record
    have hereIff : c.quarantinedIn z = true ↔ here ∧ c.quarantine = false := c.quarantinedIn_iff z
    refine ⟨fun stands loose => ?_, fun n stands ordered fresh => ⟨?_, ?_⟩, fun away => ?_⟩
    · rw [marks]
      cases quarantine : c.quarantine with
      | true =>
        rw [if_neg fun h => by simp [(hereIff.1 h).2] at quarantine, ← quarantine]
      | false =>
        rw [if_pos (hereIff.2 ⟨stands, quarantine⟩)]
        simp [Cartridge.marked, loose]
    · rw [marks, if_pos (hereIff.2 ⟨stands, fresh⟩)]
      simp [Cartridge.marked, ordered, Cartridge.withoutOrder]
    · exact State.order_quarantine_marked (z := z) (s.cat.cartridges.map (·.1)) (Table.keys_nodup w) listed (s, 0, 0) record
        (hereIff.2 ⟨stands, fresh⟩) ordered
    · rw [marks, if_neg fun h => away (hereIff.1 h).1]
  · intro s z w marked
    have counts := State.quarantine_counts z s.cat.cartridges (Table.keys_nodup w) (s, 0, 0)
      fun p mem => Table.get_of_mem w mem
    have same : marked = s.cat.cartridges.filter (fun p => p.2.quarantinedIn z) :=
      congrArg (fun p => s.cat.cartridges.filter p) (funext fun p => Cartridge.quarantinedIn_eq s p.2 z)
    refine ⟨((s.cat.cartridges.map (·.1)).foldl (State.quarantineRecord z) (s, 0, 0)).1, ?_⟩
    unfold State.quarantineZone
    dsimp only
    rw [counts, same, Nat.zero_add, Nat.zero_add]
  · intro s n o c why order pick record
    obtain ⟨l, shape⟩ := State.closeOrder_shape order why
    rw [record] at shape
    exact ⟨_, shape, rfl, rfl⟩

end Sys2Proof.Machine
end

section
/-! PROOFS about terminal telegrams: the operator's badge, what is ignored, discarded or malformed, and the two
confirmations (R162, R166, R169, R171). -/

namespace Sys2Proof.Machine

/-! ## A terminal telegram by its kind (R162) -/

/-- The rows of the terminal telegrams, each with its kind. -/
def terminalRows : List (Instr × Byte) :=
  [(.badge, 0x40#8), (.scan, 0x41#8), (.close, 0x42#8), (.confirm, 0x43#8), (.cancel, 0x44#8)]

section

variable {s : State} {it : RingItem} {h : Hatch} {side : Side} {z : Nat} {g : HandoverGroup} {e : NodeEntry} {kind : Byte}
  {act : Hatch → Side → RingItem → State → State}

theorem exec_terminal {p : Instr × Byte} (row : p ∈ terminalRows) :
    ∃ act, ∀ s, exec p.1 s = .next (s.takeTerminal p.2 act) := by
  simp only [terminalRows, List.mem_cons, List.not_mem_nil, or_false] at row
  rcases row with rfl | rfl | rfl | rfl | rfl <;> exact ⟨_, fun s => rfl⟩

theorem sideOf_terminal (cls : e.cls = .hatchReader ∨ e.cls = .courierTerminal) : ∃ side, sideOf e.cls = some side := by
  rcases cls with cls | cls <;> rw [cls] <;> exact ⟨_, rfl⟩

theorem sideOf_other (reader : e.cls ≠ .hatchReader) (courier : e.cls ≠ .courierTerminal) : sideOf e.cls = none := by
  cases cls : e.cls
  case hatchReader => exact absurd cls reader
  case courierTerminal => exact absurd cls courier
  all_goals rfl

/-- A terminal at an unbound hatch is ignored (R162). -/
theorem State.takeTerminal_unbound (offered : s.offers it kind e) (named : e.hatch = some h)
    (cls : e.cls = .hatchReader ∨ e.cls = .courierTerminal) (none : s.hatchZone h = none) : s.takeTerminal kind act
      = s.popRing.post (.terminalIgnored it.src e.cls e.zone h kind .noHatch) := by
  obtain ⟨side, sides⟩ := sideOf_terminal cls
  have kinds : it.kind = kind := offered.2.1
  refine (State.takeHead_offers offered _).trans ?_
  simp only [State.popRing_node, offered.node_eq, sides, named, show s.popRing.hatchZone h = Option.none from none, kinds]

/-- A terminal of another zone is ignored (R162). -/
theorem State.takeTerminal_elsewhere (offered : s.offers it kind e) (named : e.hatch = some h)
    (cls : e.cls = .hatchReader ∨ e.cls = .courierTerminal) (zone : s.hatchZone h = some (z, g)) (other : e.zone ≠ z) :
    s.takeTerminal kind act = s.popRing.post (.terminalIgnored it.src e.cls e.zone h kind .zoneMismatch) := by
  obtain ⟨side, sides⟩ := sideOf_terminal cls
  have kinds : it.kind = kind := offered.2.1
  refine (State.takeHead_offers offered _).trans ?_
  simp only [State.popRing_node, offered.node_eq, sides, named, show s.popRing.hatchZone h = some (z, g) from zone, kinds,
    if_neg other]

/-- A telegram of a node that is no terminal any more is discarded (R162). -/
theorem State.takeTerminal_stranger (offered : s.offers it kind e) (reader : e.cls ≠ .hatchReader)
    (courier : e.cls ≠ .courierTerminal) : s.takeTerminal kind act = s.popRing := by
  refine (State.takeHead_offers offered _).trans ?_
  simp only [State.popRing_node, offered.node_eq, sideOf_other reader courier]

/-! ## A reader's badge (R166) -/

theorem exec_badge_of_reader {id : Nat} (offered : s.offersTerminal it 0x40#8 h .reader z g)
    (parsed : parseReaderBadge it.payload = some id) :
    exec .badge s = .next (s.popRing.operatorBadge h it.src id) := by
  refine congrArg Host.Outcome.next ((State.takeTerminal_of_offers offered _).trans ?_)
  simp only [parsed]

theorem State.operatorBadge_closed {id : Nat} (closed : (s.engine h).state ≠ .opened) (sender : Nat) :
    s.operatorBadge h sender id = s.answerResult h sender .badState := if_neg closed

theorem State.operatorBadge_refused {id : Nat} (opened : (s.engine h).state = .opened) {r : ResultCode}
    (verdict : s.operatorVerdict id = r) (refused : r ≠ .accepted) (sender : Nat) :
    s.operatorBadge h sender id = s.answerResult h sender r := by
  refine (if_pos opened).trans ?_
  rw [verdict, if_neg refused]

theorem State.operatorBadge_joins {id : Nat} (opened : (s.engine h).state = .opened)
    (verdict : s.operatorVerdict id = .accepted) (sender : Nat) : s.operatorBadge h sender id
      = (s.setEngine h { s.engine h with
          operator := some id
          state := (if (s.engine h).direction = some .inward then .confirm else .scanning) }).answerResult h sender .accepted := by
  refine (if_pos opened).trans ?_
  rw [verdict, if_pos rfl]

theorem State.operatorVerdict_known {id : Nat} {p : Party} (party : s.party id = some p) :
    s.operatorVerdict id = if p.courier.isSome || !p.active then .notPermitted else .accepted := by
  unfold State.operatorVerdict
  rw [party]

theorem State.operatorVerdict_unknown {id : Nat} (none : s.party id = none) : s.operatorVerdict id = .unknownParty := by
  unfold State.operatorVerdict
  rw [none]

/-! ## Malformed telegrams (R162, R206) -/

theorem parseReaderBadge_none {p : List Byte} (wrong : p.length ≠ 2) : parseReaderBadge p = none := by
  unfold parseReaderBadge
  split
  · exact absurd rfl wrong
  · rfl

theorem parseCourierBadge_none {p : List Byte}
    (wrong : p.length ≠ 7 ∨ ∀ d, p[2]? = some d → d ≠ 0x01#8 ∧ d ≠ 0x02#8) : parseCourierBadge p = none := by
  unfold parseCourierBadge
  split
  · obtain ⟨out, inward⟩ := wrong.resolve_left (not_not_intro rfl) _ rfl
    simp only [out, inward, if_false]
  · rfl

theorem exec_badge_malformed (offered : s.offersTerminal it 0x40#8 h side z g)
    (wrong : match side with
      | .reader => parseReaderBadge it.payload = none
      | .courier => parseCourierBadge it.payload = none) :
    exec .badge s = .next (s.popRing.answerResult h it.src .badState) := by
  refine congrArg Host.Outcome.next ((State.takeTerminal_of_offers offered _).trans ?_)
  cases side <;> dsimp only at wrong ⊢ <;> rw [wrong]

theorem exec_scan_malformed (offered : s.offersTerminal it 0x41#8 h side z g)
    (wrong : side = .courier ∨ it.payload.length ≠ 8) :
    exec .scan s = .next (s.popRing.answerResult h it.src .badState) := by
  refine congrArg Host.Outcome.next ((State.takeTerminal_of_offers offered _).trans ?_)
  rcases wrong with rfl | wrong
  · rfl
  · rw [show parseLabel it.payload = none from if_neg wrong]
    cases side <;> rfl

theorem exec_close_malformed (offered : s.offersTerminal it 0x42#8 h side z g)
    (wrong : side = .courier ∨ it.payload ≠ []) :
    exec .close s = .next (s.popRing.answerResult h it.src .badState) := by
  refine congrArg Host.Outcome.next ((State.takeTerminal_of_offers offered _).trans (if_neg ?_))
  rintro ⟨empty, rfl⟩
  exact wrong.elim (fun courier => by cases courier) fun some => some empty

theorem exec_confirm_malformed (offered : s.offersTerminal it 0x43#8 h side z g) (wrong : it.payload ≠ []) :
    exec .confirm s = .next (s.popRing.answerResult h it.src .badState) :=
  congrArg Host.Outcome.next ((State.takeTerminal_of_offers offered _).trans (if_neg wrong))

theorem exec_cancel_malformed (offered : s.offersTerminal it 0x44#8 h side z g) (wrong : it.payload ≠ []) :
    exec .cancel s = .next (s.popRing.answerResult h it.src .badState) :=
  congrArg Host.Outcome.next ((State.takeTerminal_of_offers offered _).trans (if_neg fun both => wrong both.1))

end

/-- Settles O43: the operator's badge by its verdict, and the terminal rows by their common head. -/
theorem operatorBadgeJoinsTheExchange : Obligations.OperatorBadgeJoinsTheExchange := by
  refine ⟨?_, ?_, ?_, ?_⟩
  · intro s it h z id g offered parsed s1 e
    rw [exec_badge_of_reader offered parsed]
    refine ⟨fun closed => ?_, fun opened unknown => ?_, fun p opened party refused => ?_,
      fun p opened party operator active => ?_⟩
    · rw [State.operatorBadge_closed (s := s.popRing) closed]
    · rw [State.operatorBadge_refused (s := s.popRing) opened (State.operatorVerdict_unknown unknown) (by decide)]
    · have verdict : s.popRing.operatorVerdict id = .notPermitted := by
        rw [State.operatorVerdict_known (s := s.popRing) party]
        exact if_pos (by simpa using refused)
      rw [State.operatorBadge_refused (s := s.popRing) opened verdict (by decide)]
    · have verdict : s.popRing.operatorVerdict id = .accepted := by
        rw [State.operatorVerdict_known (s := s.popRing) party]
        exact if_neg (by simp [operator, active])
      rw [State.operatorBadge_joins (s := s.popRing) opened verdict]
      rfl
  · intro p row s it e h offered named ignored cls
    obtain ⟨act, terminal⟩ := exec_terminal row
    rw [terminal]
    exact ⟨fun none => congrArg _ (State.takeTerminal_unbound offered named cls none),
      fun z g zone other => congrArg _ (State.takeTerminal_elsewhere offered named cls zone other)⟩
  · intro p row s it
    obtain ⟨act, terminal⟩ := exec_terminal row
    rw [terminal]
    refine ⟨fun e offered reader courier => congrArg _ (State.takeTerminal_stranger offered reader courier),
      fun head kind none => ⟨?_, congrArg _ (State.takeHead_absent head none _ _)⟩⟩
    obtain ⟨rest, ring⟩ := List.head?_eq_some_iff.1 head
    refine congrArg Host.Outcome.next ?_
    rw [ring]
    dsimp only
    rw [State.isDispatched_eq_false (.inr none), if_neg Bool.false_ne_true]
  · intro p row s it h side z g offered wrong
    simp only [List.mem_cons, List.not_mem_nil, or_false] at row
    rcases row with rfl | rfl | rfl | rfl | rfl
    · refine exec_badge_malformed offered ?_
      cases side
      · exact parseReaderBadge_none wrong
      · exact parseCourierBadge_none wrong
    · refine exec_scan_malformed offered ?_
      cases side
      · exact .inr wrong
      · exact .inl rfl
    · refine exec_close_malformed offered ?_
      cases side
      · exact .inr wrong
      · exact .inl rfl
    · refine exec_confirm_malformed offered ?_
      cases side <;> exact wrong
    · refine exec_cancel_malformed offered ?_
      cases side <;> exact wrong

/-! ## The two confirmations (R169, R171) -/

section

variable {s : State} {it : RingItem} {h : Hatch} {side : Side} {z : Nat} {g : HandoverGroup}

theorem exec_confirm_of_terminal (offered : s.offersTerminal it 0x43#8 h side z g) (empty : it.payload = []) :
    exec .confirm s = .next (s.popRing.confirmSide h it.src side) :=
  congrArg Host.Outcome.next ((State.takeTerminal_of_offers offered _).trans (if_pos empty))

theorem State.confirmSide_other (other : (s.engine h).state ≠ .confirm) (sender : Nat) :
    s.confirmSide h sender side = s.answerResult h sender .badState := if_neg other

theorem State.confirmSide_first (confirm : (s.engine h).state = .confirm) (first : (s.engine h).first = none) (sender : Nat) :
    s.confirmSide h sender side
      = (s.setEngine h { s.engine h with first := some side, confirmTimer := some 3000 }).answerResult h sender .accepted := by
  refine (if_pos confirm).trans ?_
  rw [first]
  rfl

theorem State.confirmSide_second {f : Side} (confirm : (s.engine h).state = .confirm) (first : (s.engine h).first = some f)
    (sender : Nat) : s.confirmSide h sender side
      = if f = side then s.answerResult h sender .accepted
        else (s.setEngine h { s.engine h with first := none, confirmTimer := none, openTimer := none }).enterRelease h sender := by
  refine (if_pos confirm).trans ?_
  rw [first]

theorem State.enterRelease_unlocked {l : Lock} (zone : s.hatchZone h = some (z, g)) (record : s.lock g.lock = some l)
    (sender : Nat) : s.enterRelease h sender = (let u := s.setClaims g.lock (fun c => c.setHandover h true)
      (u.setEngine h { u.engine h with state := .release, doorOpened := false, unlockTimer := some 6000 }).answerResult h sender
        .accepted) := by
  unfold State.enterRelease
  rw [zone]
  dsimp only
  rw [record]
  rfl

theorem State.enterRelease_lockless (zone : s.hatchZone h = some (z, g)) (none : s.lock g.lock = none) (sender : Nat) :
    s.enterRelease h sender = s.abortExchange h .noLock := by
  unfold State.enterRelease
  rw [zone]
  dsimp only
  rw [none]

theorem State.hatchZone_congr {t : State} (same : t.zt = s.zt) (k : Hatch) : t.hatchZone k = s.hatchZone k := by
  unfold State.hatchZone
  rw [same]

theorem State.engine_congr {t : State} (first : t.he0 = s.he0) (second : t.he1 = s.he1) (k : Hatch) :
    t.engine k = s.engine k := by
  cases k
  · exact first
  · exact second

theorem State.lock_of_decided {a : Nat} {c : Claims} {st : LockState} (decided : s.decided a = some (c, st)) :
    ∃ l, s.lock a = some l ∧ l.claims = c := by
  obtain ⟨l, found, same⟩ := Option.map_eq_some_iff.1 decided
  exact ⟨l, found, congrArg Prod.fst same⟩

theorem State.engine_abortExchange_same (s : State) (h : Hatch) (cause : HandoverCause) :
    (s.abortExchange h cause).engine h = Engine.idle := State.engine_setEngine_same _ _ _

theorem State.engine_foldl_abortOne (l : List Nat) (s : State) (k : Hatch) :
    (l.foldl State.abortOne s).engine k = s.engine k :=
  foldl_keeps (fun s => s.engine k) _ (fun s i => State.engine_congr (by simp) (by simp) k) l s

theorem State.engine_abortExchange_other (s : State) {h k : Hatch} (other : k ≠ h) (cause : HandoverCause) :
    (s.abortExchange h cause).engine k = s.engine k := by
  unfold State.abortExchange
  dsimp only
  rw [State.engine_endExchange_other _ other]
  split
  · exact State.engine_foldl_abortOne _ s k
  · exact (State.engine_dropHandoverClaim _ h k).trans (State.engine_foldl_abortOne _ s k)

end

/-- Settles O45: `State.confirmSide` by the state of the engine and what it has heard. -/
theorem twoConfirmationsOpenTheHatch : Obligations.TwoConfirmationsOpenTheHatch := by
  intro s it h side z g offered empty e
  rw [exec_confirm_of_terminal offered empty]
  have zone : s.hatchZone h = some (z, g) := offered.hatchZone_eq
  obtain ⟨v, isV⟩ : ∃ v, v = s.popRing.setEngine h { e with first := none, confirmTimer := none, openTimer := none } := ⟨_, rfl⟩
  have zoned : v.hatchZone h = some (z, g) := (State.hatchZone_congr (s := s) (by simp [isV]) h).trans zone
  have lock : v.lock g.lock = s.lock g.lock := by simp [isV, State.lock]
  have second {f : Side} (confirm : e.state = .confirm) (first : e.first = some f) (other : f ≠ side) :
      s.popRing.confirmSide h it.src side = v.enterRelease h it.src := by
    rw [State.confirmSide_second (s := s.popRing) confirm first, if_neg other, isV]
    rfl
  have others {t : State} (kept : ∀ k, k ≠ h → t.engine k = v.engine k) (k : Hatch) (other : k ≠ h) :
      t.engine k = s.engine k := by
    rw [kept k other, isV, State.engine_setEngine_other _ _ _ _ other]
    exact State.engine_congr (by simp) (by simp) k
  have frame : v.nt = s.nt ∧ v.zt = s.zt ∧ v.lu = s.lu ∧ v.cu = s.cu ∧ v.cat = s.cat ∧ v.pt = s.pt ∧ v.cs = s.cs := by
    rw [isV]
    simp
  refine ⟨fun confirm first => ?_, fun confirm first => ?_, fun f l confirm first other record => ?_,
    fun f confirm first other none => ?_, fun other => ?_⟩
  · rw [State.confirmSide_first (s := s.popRing) confirm first]
    rfl
  · rw [State.confirmSide_second (s := s.popRing) confirm first, if_pos rfl]
  · rw [second confirm first other, State.enterRelease_unlocked zoned (lock.trans record)]
    obtain ⟨u, isU⟩ : ∃ u, u = v.setClaims g.lock (fun c => c.setHandover h true) := ⟨_, rfl⟩
    have engines (k : Hatch) : u.engine k = v.engine k := State.engine_congr (by simp [isU]) (by simp [isU]) k
    have own : u.engine h = { e with first := none, confirmTimer := none, openTimer := none } := by
      rw [engines, isV, State.engine_setEngine_same]
    have answered (t : State) (k : Hatch) : (t.answerResult h it.src .accepted).engine k = t.engine k :=
      State.engine_congr (by simp) (by simp) k
    rw [← isU]
    refine ⟨_, _, rfl, rfl, ?_, others fun k other => ?_, ?_, ?_, ?_, ?_, ?_, ?_, ?_, ?_⟩
    · rw [answered, State.engine_setEngine_same, own]
    · rw [answered, State.engine_setEngine_other _ _ _ _ other, engines]
    case refine_10 =>
      have claims := v.setClaims_decided g.lock (fun c => c.setHandover h true) l (lock.trans record)
      refine State.lock_of_decided (st := (l.claims.setHandover h true).command) ?_
      rw [State.answerResult, State.requestTx_decided, ← claims, ← isU]
      simp [State.decided, State.lock]
    all_goals simp [isU, frame]
  · rw [second confirm first other, State.enterRelease_lockless zoned (lock.trans none)]
    refine ⟨_, rfl, State.engine_abortExchange_same v h _, others fun k other => State.engine_abortExchange_other v other _,
      ?_⟩
    simp [frame]
  · rw [State.confirmSide_other (s := s.popRing) other]

end Sys2Proof.Machine
end

section
/-! PROOFS about the ends of an exchange: aborts, commits and the hatch door (R172 to R182). -/

namespace Sys2Proof.Machine

/-! ## What the queue's refusals leave of the orders (R155) -/

/-- An order but for its pick, and for whether it is released or waits again. -/
def Order.core (o : Order) : Order :=
  { o with state := (if o.state = .released then .waiting else o.state), pick := .notSent }

/-- From `s` to `t` no order but for its pick has changed, and none has come or gone. -/
structure State.SameOrders (s t : State) : Prop where
  numbers : t.ol.orders.map (·.number) = s.ol.orders.map (·.number)
  core    : ∀ m, (t.order m).map Order.core = (s.order m).map Order.core

namespace State.SameOrders

variable {s t u : State}

theorem of_ol (same : t.ol = s.ol) : SameOrders s t :=
  ⟨by rw [same], fun m => by rw [State.order_congr same]⟩

theorem trans (h : SameOrders s t) (k : SameOrders t u) : SameOrders s u :=
  ⟨k.numbers.trans h.numbers, fun m => (k.core m).trans (h.core m)⟩

theorem setOrder {o o' : Order} (found : s.order o.number = some o) (same : o'.core = o.core) :
    SameOrders s (s.setOrder o') := by
  have number : o'.number = o.number := show o'.core.number = o.core.number from congrArg Order.number same
  refine ⟨?_, fun m => ?_⟩
  · show (s.ol.orders.map _).map _ = _
    rw [List.map_map]
    refine List.map_congr_left fun p _ => ?_
    by_cases here : p.number = o'.number
    · exact (congrArg Order.number (if_pos here)).trans here.symm
    · exact congrArg Order.number (if_neg here)
  · by_cases here : m = o.number
    · rw [here, State.order_setOrder_same found number, found, Option.map_some, Option.map_some, same]
    · rw [State.order_setOrder_other s (number ▸ here)]

theorem setLock (s : State) (a : Nat) (l : Lock) : SameOrders s (s.setLock a l) := of_ol rfl

theorem placeTx (s : State) (r : TxRequest) : SameOrders s (s.placeTx r) := of_ol rfl

theorem removeTx (s : State) (n : Nat) : SameOrders s (s.removeTx n) := of_ol rfl

theorem post (s : State) (b : NoticeBody) : SameOrders s (s.post b) := of_ol rfl

theorem setEngine (s : State) (h : Hatch) (e : Engine) : SameOrders s (s.setEngine h e) := of_ol (by simp)

theorem pickDropped (s : State) (n : Nat) (d : Bool) : SameOrders s (s.pickDropped n d) := by
  unfold State.pickDropped
  cases found : s.order n with
  | none => cases d <;> exact of_ol rfl
  | some o =>
    cases d with
    | true => exact of_ol rfl
    | false =>
      refine setOrder (o := o) (by rw [State.order_number found]; exact found) ?_
      unfold Order.core
      cases o.state <;> rfl

theorem dropped (s : State) (o : Origin) : SameOrders s (s.dropped o) := by
  cases o with
  | release z live => cases live <;> exact of_ol rfl
  | alert => exact of_ol rfl
  | lockSet a live => exact of_ol (show (s.lockDropped a live).ol = s.ol by simp)
  | actSet z r p live => exact of_ol (show (s.actDropped z r p live).ol = s.ol by simp)
  | pick n d => exact pickDropped s n d
  | pickWithdraw => exact of_ol rfl
  | result h => exact of_ol rfl
  | passDown => exact of_ol (show (s.passDownOutcome .dropped).ol = s.ol by simp)

theorem requestTx (s : State) (r : TxRequest) : SameOrders s (s.requestTx r) := by
  unfold State.requestTx
  split
  · exact of_ol rfl
  · split
    · rename_i v _
      exact ((removeTx s v.arrival).trans (dropped _ v.origin)).trans (placeTx _ r)
    · exact dropped s _

theorem sendLock (s : State) (a : Nat) : SameOrders s (s.sendLock a) := by
  unfold State.sendLock
  cases s.lock a with
  | none => exact of_ol rfl
  | some l => exact (setLock s a { l with sent := l.commanded, send := .inFlight }).trans (requestTx _ (lockSetRequest a l.commanded))

theorem decideLock (s : State) (a : Nat) : SameOrders s (s.decideLock a) := by
  unfold State.decideLock
  cases s.lock a with
  | none => exact of_ol rfl
  | some l =>
    refine iteInduction (fun _ => of_ol rfl) (fun _ => ?_)
    exact iteInduction (fun _ => (setLock s a { l with commanded := l.claims.command }).trans (sendLock _ a))
      (fun _ => setLock s a { l with commanded := l.claims.command })

theorem setClaims (s : State) (a : Nat) (f : Claims → Claims) : SameOrders s (s.setClaims a f) := by
  unfold State.setClaims
  cases s.lock a with
  | none => exact of_ol rfl
  | some l => exact (setLock s a { l with claims := f l.claims }).trans (decideLock _ a)

theorem dropHandoverClaim (s : State) (h : Hatch) : SameOrders s (s.dropHandoverClaim h) := by
  unfold State.dropHandoverClaim
  cases s.hatchZone h with
  | none => exact of_ol rfl
  | some zone => exact setClaims s _ _

theorem endResult (s : State) (h : Hatch) (c : NodeClass) (r : ResultCode) : SameOrders s (s.endResult h c r) := by
  unfold State.endResult
  cases s.terminal c h with
  | none => exact of_ol rfl
  | some a => exact requestTx s _

theorem endExchange (s : State) (h : Hatch) (cause : HandoverCause) (l : List (Nat × Label)) (d : Option Nat)
    (g : Option (Nat × Nat)) : SameOrders s (s.endExchange h cause l d g) :=
  (((post s _).trans (endResult _ h .hatchReader _)).trans (endResult _ h .courierTerminal _)).trans
    (setEngine _ h Engine.idle)

end State.SameOrders

/-! ## What the end of an exchange leaves of the locks (R182) -/

section

variable {s : State} {h : Hatch} {z a : Nat} {g : HandoverGroup}

theorem State.decided_congr {t : State} (same : t.la = s.la) (a : Nat) : t.decided a = s.decided a := by
  unfold State.decided State.lock
  rw [same]

theorem State.decided_endExchange (s : State) (h : Hatch) (cause : HandoverCause) (l : List (Nat × Label)) (d : Option Nat)
    (g : Option (Nat × Nat)) (a : Nat) : (s.endExchange h cause l d g).decided a = s.decided a := by
  have result (u : State) (c : NodeClass) : (u.endResult h c cause.endCode).decided a = u.decided a := by
    unfold State.endResult
    cases u.terminal c h with
    | none => rfl
    | some b => exact State.requestTx_decided _ _ _
  unfold State.endExchange
  dsimp only
  rw [State.decided_congr (State.setEngine_frame _ h Engine.idle).2.2.2.2.2.2.2.2.1, result, result]
  rfl

theorem State.decided_dropHandoverClaim {l : Lock} (zone : s.hatchZone h = some (z, g)) (record : s.lock g.lock = some l) :
    (s.dropHandoverClaim h).decided g.lock
      = some (l.claims.setHandover h false, (l.claims.setHandover h false).command) := by
  unfold State.dropHandoverClaim
  rw [zone]
  exact State.setClaims_decided s g.lock _ l record

theorem State.lock_congr {t : State} (same : t.la = s.la) (a : Nat) : t.lock a = s.lock a := by
  unfold State.lock
  rw [same]

end

/-! ## An abort (R182) -/

/-- A cartridge of an aborted manifest. -/
def Cartridge.backInHand (c : Cartridge) : Cartridge := { c with state := .picked, hatch := none }

section

variable {s : State} {n : Nat} {o : Order}

theorem State.la_settlePick (s : State) (n : Nat) : (s.settlePick n).la = s.la := by
  obtain ⟨orders, l, settled, -⟩ := s.settlePick_shape n
  rw [settled]

theorem State.la_moveOrder (s : State) (n : Nat) (st : OrderState) : (s.moveOrder n st).la = s.la := by
  cases found : s.order n with
  | none => rw [State.moveOrder_none found]
  | some o =>
    by_cases released : o.state = .released
    · rw [State.moveOrder_released found released, State.la_settlePick]
      rfl
    · rw [State.moveOrder_unreleased found released]
      rfl

theorem State.order_moveOrder_same (found : s.order n = some o) (st : OrderState) :
    ∃ p, (s.moveOrder n st).order n = some { o with state := st, pick := p } := by
  have moved : (s.setOrder { o with state := st }).order n = some { o with state := st } :=
    State.order_setOrder_same found (State.order_number found :)
  by_cases released : o.state = .released
  · rw [State.moveOrder_released found released]
    exact State.settlePick_order moved
  · rw [State.moveOrder_unreleased found released]
    exact ⟨o.pick, moved⟩

theorem State.order_moveOrder_other (s : State) {n m : Nat} (other : m ≠ n) (st : OrderState) :
    (s.moveOrder n st).order m = s.order m := by
  cases found : s.order n with
  | none => rw [State.moveOrder_none found]
  | some o =>
    have set : (s.setOrder { o with state := st }).order m = s.order m :=
      State.order_setOrder_other s (o := { o with state := st }) (State.order_number found ▸ other)
    by_cases released : o.state = .released
    · rw [State.moveOrder_released found released, State.order_settlePick_other _ other, set]
    · rw [State.moveOrder_unreleased found released, set]

end

section

variable {s : State} {i j n k : Nat} {c : Cartridge}

theorem State.abortOne_absent (none : s.cartridge i = none) : s.abortOne i = s := by
  unfold State.abortOne
  rw [none]

theorem State.abortOne_record (record : s.cartridge i = some c) : s.abortOne i = match c.order with
    | some n => (s.setCartridge i c.backInHand).moveOrder n .picked
    | none => s.setCartridge i c.backInHand := by
  unfold State.abortOne
  simp only [record, Cartridge.backInHand] <;> rfl

theorem State.abortOne_cat (record : s.cartridge i = some c) : (s.abortOne i).cat = (s.setCartridge i c.backInHand).cat := by
  rw [State.abortOne_record record]
  cases c.order with
  | none => rfl
  | some n => simp

theorem State.cartridge_abortOne_same (s : State) (i : Nat) :
    (s.abortOne i).cartridge i = (s.cartridge i).map Cartridge.backInHand := by
  cases record : s.cartridge i with
  | none => rw [State.abortOne_absent record, record, Option.map_none]
  | some c =>
    rw [State.cartridge, State.abortOne_cat record]
    exact Table.get_put_same _ _ _

theorem State.cartridge_abortOne_other (s : State) {i j : Nat} (other : j ≠ i) :
    (s.abortOne i).cartridge j = s.cartridge j := by
  cases record : s.cartridge i with
  | none => rw [State.abortOne_absent record]
  | some c =>
    rw [State.cartridge, State.abortOne_cat record]
    exact Table.get_put_other _ _ other

/-- Each listed record is back in hand; a second time changes it no more. -/
theorem State.cartridge_foldl_abortOne (l : List Nat) (s : State) (j : Nat) :
    (l.foldl State.abortOne s).cartridge j
      = if j ∈ l then (s.cartridge j).map Cartridge.backInHand else s.cartridge j := by
  induction l generalizing s with
  | nil => simp
  | cons i l ih =>
    rw [List.foldl_cons, ih]
    by_cases here : j = i
    · subst here
      rw [State.cartridge_abortOne_same, if_pos List.mem_cons_self]
      split
      · rw [Option.map_map]
        rfl
      · rfl
    · rw [State.cartridge_abortOne_other s here]
      simp [here]

theorem State.la_abortOne (s : State) (i : Nat) : (s.abortOne i).la = s.la := by
  cases record : s.cartridge i with
  | none => rw [State.abortOne_absent record]
  | some c =>
    rw [State.abortOne_record record]
    cases c.order with
    | none => rfl
    | some n => exact State.la_moveOrder _ _ _

theorem State.la_foldl_abortOne (l : List Nat) (s : State) : (l.foldl State.abortOne s).la = s.la :=
  foldl_keeps (fun s => s.la) _ State.la_abortOne l s

theorem State.zt_foldl_abortOne (l : List Nat) (s : State) : (l.foldl State.abortOne s).zt = s.zt :=
  foldl_keeps (fun s => s.zt) _ (fun s i => by simp) l s

/-- The order `n` of the courier `k` is open, and PICKED where `done`. -/
def State.orderOf (s : State) (n k : Nat) (done : Bool) : Prop :=
  ∃ o, s.order n = some o ∧ o.courier = k ∧ (done = true → o.state = .picked)

theorem State.orderOf_abortOne {done : Bool} (open_ : s.orderOf n k done) (i : Nat) : (s.abortOne i).orderOf n k done := by
  cases record : s.cartridge i with
  | none => rwa [State.abortOne_absent record]
  | some c =>
    rw [State.abortOne_record record]
    cases c.order with
    | none => exact open_
    | some m =>
      obtain ⟨o, found, courier, picked⟩ := open_
      by_cases here : n = m
      · subst here
        obtain ⟨p, moved⟩ := State.order_moveOrder_same (s := s.setCartridge i c.backInHand) found .picked
        exact ⟨_, moved, courier, fun _ => rfl⟩
      · exact ⟨o, (State.order_moveOrder_other (s.setCartridge i c.backInHand) here _).trans found, courier, picked⟩

theorem State.orderOf_abortOne_own {done : Bool} (open_ : s.orderOf n k done) (record : s.cartridge i = some c)
    (names : c.order = some n) : (s.abortOne i).orderOf n k true := by
  obtain ⟨o, found, courier, -⟩ := open_
  rw [State.abortOne_record record, names]
  obtain ⟨p, moved⟩ := State.order_moveOrder_same (s := s.setCartridge i c.backInHand) found .picked
  exact ⟨_, moved, courier, fun _ => rfl⟩

theorem State.orderOf_foldl_abortOne {done : Bool} (l : List Nat) (s : State) (open_ : s.orderOf n k done) :
    (l.foldl State.abortOne s).orderOf n k done := by
  induction l generalizing s with
  | nil => exact open_
  | cons j l ih => exact ih _ (State.orderOf_abortOne open_ j)

theorem State.orderOf_foldl_abortOne_listed {done : Bool} {l : List Nat} (listed : i ∈ l) {s : State}
    (open_ : s.orderOf n k done) {c : Cartridge} (record : s.cartridge i = some c) (names : c.order = some n) :
    (l.foldl State.abortOne s).orderOf n k true := by
  induction l generalizing s c with
  | nil => exact absurd listed List.not_mem_nil
  | cons j l ih =>
    by_cases here : i = j
    · subst here
      exact State.orderOf_foldl_abortOne l _ (State.orderOf_abortOne_own open_ record names)
    · refine ih ((List.mem_cons.1 listed).resolve_left here) (State.orderOf_abortOne open_ j) ?_ names
      rw [State.cartridge_abortOne_other s here, record]

theorem State.orderOf_sameOrders {t : State} (same : State.SameOrders s t) (open_ : s.orderOf n k true) :
    t.orderOf n k true := by
  obtain ⟨o, found, courier, picked⟩ := open_
  have core := same.core n
  rw [found, Option.map_some] at core
  obtain ⟨o', found', cores⟩ := Option.map_eq_some_iff.1 core
  refine ⟨o', found', ?_, fun _ => ?_⟩
  · have same := congrArg Order.courier cores
    exact same.trans courier
  · have same := congrArg Order.state cores
    simp only [Order.core, picked rfl] at same
    revert same
    cases o'.state <;> simp

end

section

variable {s : State} {h : Hatch} {cause : HandoverCause}

theorem State.abortExchange_eq (cause : HandoverCause) (claimed : cause ≠ .noLock) : s.abortExchange h cause
    = (((s.engine h).list.foldl State.abortOne s).dropHandoverClaim h).endExchange h cause (s.listed (s.engine h).list) none
        none := by
  unfold State.abortExchange
  dsimp only
  rw [if_neg claimed]

/-- What an abort makes of the manifest, its orders and the claim (R182). -/
theorem State.abortExchange_gives_back (claimed : cause ≠ .noLock) :
    let e := s.engine h
    let t := s.abortExchange h cause
    (∀ i c, i ∈ e.list → s.cartridge i = some c → t.cartridge i = some { c with state := .picked, hatch := none })
      ∧ (∀ i, i ∉ e.list → t.cartridge i = s.cartridge i)
      ∧ (∀ i c n o, i ∈ e.list → s.cartridge i = some c → c.order = some n → s.order n = some o → o.state = .manifested →
          ∃ o', t.order n = some o' ∧ o'.state = .picked ∧ o'.courier = o.courier)
      ∧ (∀ y q l, s.hatchZone h = some (y, q) → s.lock q.lock = some l →
          ∃ l', t.lock q.lock = some l' ∧ l'.claims = l.claims.setHandover h false) := by
  intro e t
  obtain ⟨u, isU⟩ : ∃ u, u = e.list.foldl State.abortOne s := ⟨_, rfl⟩
  have shape : t = (u.dropHandoverClaim h).endExchange h cause (s.listed e.list) none none :=
    isU ▸ State.abortExchange_eq cause claimed
  have cartridges (i : Nat) : t.cartridge i = u.cartridge i := by
    rw [shape]
    simp [State.cartridge]
  have records (i : Nat) := isU ▸ State.cartridge_foldl_abortOne e.list s i
  refine ⟨fun i c listed record => ?_, fun i other => ?_, fun i c n o listed record names order _ => ?_,
    fun y q l zone record => ?_⟩
  · rw [cartridges, records, if_pos listed, record]
    rfl
  · rw [cartridges, records, if_neg other]
  · have picked : u.orderOf n o.courier true :=
      isU ▸ State.orderOf_foldl_abortOne_listed (done := false) listed ⟨o, order, rfl, fun h => by cases h⟩ record names
    obtain ⟨o', found, courier, state⟩ := State.orderOf_sameOrders
      ((State.SameOrders.dropHandoverClaim u h).trans (State.SameOrders.endExchange _ h cause _ none none)) picked
    exact ⟨o', by rw [shape]; exact found, state rfl, courier⟩
  · refine State.lock_of_decided (st := (l.claims.setHandover h false).command) ?_
    rw [shape, State.decided_endExchange]
    refine State.decided_dropHandoverClaim (z := y) ?_ ?_
    · rw [State.hatchZone_congr (isU ▸ State.zt_foldl_abortOne e.list s), zone]
    · rw [State.lock_congr (isU ▸ State.la_foldl_abortOne e.list s), record]

/-- What an end of an exchange leaves beside the catalogue, the orders and the locks. -/
theorem State.abortExchange_ends (s : State) (h : Hatch) (cause : HandoverCause) :
    let t := s.abortExchange h cause
    (t.engine h = Engine.idle ∧ (∀ k, k ≠ h → t.engine k = s.engine k) ∧ t.nt = s.nt ∧ t.zt = s.zt ∧ t.lu = s.lu
      ∧ t.cu = s.cu ∧ t.cs = s.cs) ∧ t.pt = s.pt :=
  ⟨⟨State.engine_abortExchange_same s h cause, fun k other => State.engine_abortExchange_other s other cause,
    by simp, by simp, by simp, by simp, by simp⟩, by simp⟩

theorem State.commitIn_ends (s : State) (h : Hatch) (cause : HandoverCause) :
    let t := s.commitIn h cause
    t.engine h = Engine.idle ∧ (∀ k, k ≠ h → t.engine k = s.engine k) ∧ t.nt = s.nt ∧ t.zt = s.zt ∧ t.lu = s.lu
      ∧ t.cu = s.cu ∧ t.cs = s.cs :=
  ⟨State.engine_commitIn_same s h cause, fun k other => State.engine_commitIn_other s other cause,
    by simp, by simp, by simp, by simp, by simp⟩

/-- An inbound commit's list is STAGING, and no other record moves (R178). -/
theorem State.commitIn_stages {z : Nat} {g : HandoverGroup} (zone : s.hatchZone h = some (z, g)) (cause : HandoverCause) :
    let e := s.engine h
    let t := s.commitIn h cause
    (∀ i c, i ∈ e.list → s.cartridge i = some c → ∃ c', t.cartridge i = some c' ∧ c'.state = .staging
        ∧ c'.staging = some g.staging ∧ c'.acclim = some (s.acclimRequirement g.staging e.caseTemp))
      ∧ (∀ i, i ∉ e.list → t.cartridge i = s.cartridge i) := by
  refine ⟨fun i c listed record => ?_, fun i other => (State.cartridge_commitIn zone cause i).trans (if_neg other)⟩
  refine ⟨_, (State.cartridge_commitIn zone cause i).trans ((if_pos listed).trans (congrArg _ record)), rfl, rfl, rfl⟩

theorem Engine.abortable_iff (e : Engine) : e.abortable = true
    ↔ e.state = .opened ∨ e.state = .scanning ∨ e.state = .confirm ∨ (e.state = .release ∧ e.doorOpened = false) := by
  unfold Engine.abortable
  cases e.state <;> simp

theorem Engine.abortable_eq_false {e : Engine}
    (late : e.state = .idle ∨ e.state = .intake ∨ (e.state = .release ∧ e.doorOpened = true)) : e.abortable = false := by
  unfold Engine.abortable
  rcases late with state | state | ⟨state, door⟩ <;> simp [*]

end

/-- Settles O46: every end is an abort or an inbound commit, by `State.abortExchange_gives_back` and `State.commitIn_stages`. -/
theorem exchangesEndIdle : Obligations.ExchangesEndIdle := by
  intro s it h side z g e ended aborted stagedIn
  have aborts (cause : HandoverCause) (claimed : cause ≠ .noLock) :
      ended (s.abortExchange h cause) ∧ (s.abortExchange h cause).pt = s.pt ∧ aborted (s.abortExchange h cause) :=
    have ends := s.abortExchange_ends h cause
    ⟨ends.1, ends.2, State.abortExchange_gives_back claimed⟩
  refine ⟨fun offered empty => ⟨fun early => ?_, fun late => ?_⟩, fun due => ?_, fun due => ?_, fun due => ?_, fun due => ?_,
    fun running => ?_, fun running => ?_, fun running => ?_, fun running => ?_, fun early => ?_, fun late => ?_, fun intake zone => ?_⟩
  · have claimed : HandoverCause.cancel side ≠ .noLock := by simp
    have ends := s.popRing.abortExchange_ends h (.cancel side)
    exact ⟨_, congrArg Host.Outcome.next ((State.takeTerminal_of_offers offered _).trans
      (if_pos ⟨empty, (Engine.abortable_iff e).2 early⟩)), ends.1, ends.2, State.abortExchange_gives_back (s := s.popRing) claimed⟩
  · refine congrArg Host.Outcome.next ((State.takeTerminal_of_offers offered _).trans (if_neg fun both => ?_))
    rw [show (s.popRing.engine h).abortable = false from Engine.abortable_eq_false late] at both
    exact Bool.false_ne_true both.2
  · exact ⟨_, congrArg Host.Outcome.next (if_pos ((timerDue_iff _).2 due)), aborts _ (by decide)⟩
  · exact ⟨_, congrArg Host.Outcome.next (if_pos ((timerDue_iff _).2 due)), aborts _ (by decide)⟩
  · exact ⟨congrArg Host.Outcome.next (if_pos ((timerDue_iff _).2 due)), s.commitIn_ends h _,
      fun zone => State.commitIn_stages zone _⟩
  · exact congrArg Host.Outcome.next (if_pos ((timerDue_iff _).2 due))
  · exact congrArg Host.Outcome.next (if_neg fun due => running ((timerDue_iff _).1 due))
  · exact congrArg Host.Outcome.next (if_neg fun due => running ((timerDue_iff _).1 due))
  · exact congrArg Host.Outcome.next (if_neg fun due => running ((timerDue_iff _).1 due))
  · exact congrArg Host.Outcome.next (if_neg fun due => running ((timerDue_iff _).1 due))
  · have row : s.engineFire h = s.abortExchange h .fireAbort := if_pos ((Engine.abortable_iff e).2 early)
    rw [row]
    exact ⟨rfl, aborts _ (by decide)⟩
  · have still : e.abortable = false := Engine.abortable_eq_false (late.imp_right .inr)
    have other : e.state ≠ .intake := by rcases late with state | ⟨state, -⟩ <;> simp [state]
    exact (if_neg (by rw [show (s.engine h).abortable = false from still]; exact Bool.false_ne_true)).trans (if_neg other)
  · have still : e.abortable = false := Engine.abortable_eq_false (.inr (.inl intake))
    have row : s.engineFire h = s.commitIn h .fireCommit :=
      (if_neg (by rw [show (s.engine h).abortable = false from still]; exact Bool.false_ne_true)).trans (if_pos intake)
    rw [row]
    exact ⟨rfl, s.commitIn_ends h _, State.commitIn_stages zone _⟩

end Sys2Proof.Machine
end

section
/-! PROOFS about the hatch door and the outbound commit (R149, R172, R174, R177). -/

namespace Sys2Proof.Machine

/-! ## The engine and the door (R172, R174) -/

section

variable {s : State} {h : Hatch} {z : Nat} {g : HandoverGroup}

theorem State.engineDoor_opened (release : (s.engine h).state = .release) :
    s.engineDoor h .opened = s.setEngine h { s.engine h with doorOpened := true, unlockTimer := none } := if_pos release

theorem State.engineDoor_closed (release : (s.engine h).state = .release) : s.engineDoor h .closed
    = if (s.engine h).doorOpened then
        match (s.engine h).direction with
        | some .inward => s.enterIntake h
        | some .out => s.commitOut h
        | none => s
      else s := (if_pos release).trans rfl

/-- The engine in INTAKE with its timer, the claim removed (R174). -/
def State.inIntake (s : State) (h : Hatch) : State :=
  (s.dropHandoverClaim h).setEngine h { s.engine h with state := .intake, intakeTimer := some 60000 }

theorem State.enterIntake_eq (zone : s.hatchZone h = some (z, g)) : s.enterIntake h
    = if s.hatchFire z then (s.inIntake h).commitIn h .fireCommit else s.inIntake h := by
  have zoned : (s.inIntake h).hatchZone h = some (z, g) := by
    rw [State.hatchZone_congr (s := s) (by simp [State.inIntake]), zone]
  have fire : (s.inIntake h).hatchFire z = s.hatchFire z :=
    (State.hatchFire_setEngine _ _ _ _).trans (State.hatchFire_dropHandoverClaim s h z)
  have steps : s.enterIntake h = match (s.inIntake h).hatchZone h with
      | some (z, _) => if (s.inIntake h).hatchFire z then (s.inIntake h).commitIn h .fireCommit else s.inIntake h
      | none => s.inIntake h := by
    unfold State.enterIntake State.inIntake
    simp only [State.engine_dropHandoverClaim] <;> rfl
  rw [steps, zoned]
  dsimp only
  rw [fire]

theorem State.hatchFire_iff : s.hatchFire z = true ↔ s.fz.fireActive = true ∨ (s.fire z).state = .confirmed := by
  simp [State.hatchFire]

theorem State.engine_inIntake_same (s : State) (h : Hatch) :
    (s.inIntake h).engine h = { s.engine h with state := .intake, intakeTimer := some 60000 } :=
  State.engine_setEngine_same _ _ _

theorem State.engine_inIntake_other (s : State) {h k : Hatch} (other : k ≠ h) : (s.inIntake h).engine k = s.engine k :=
  (State.engine_setEngine_other _ _ _ _ other).trans (State.engine_dropHandoverClaim s h k)

theorem State.cartridge_inIntake (s : State) (h : Hatch) (i : Nat) : (s.inIntake h).cartridge i = s.cartridge i := by
  simp [State.inIntake, State.cartridge]

theorem State.acclimRequirement_congr {t : State} (cu : t.cu = s.cu) (zt : t.zt = s.zt) (z : Nat) (tcase : Option Int) :
    t.acclimRequirement z tcase = s.acclimRequirement z tcase := by
  simp only [State.acclimRequirement, State.climate, State.zone, cu, zt]

theorem State.la_foldl_takeIn (zone : Option Nat) (a : Nat) (l : List Nat) (s : State) :
    (l.foldl (State.takeIn zone a) s).la = s.la :=
  foldl_keeps (fun s => s.la) _ (fun s i => by unfold State.takeIn; split <;> simp) l s

theorem State.zt_foldl_takeIn (zone : Option Nat) (a : Nat) (l : List Nat) (s : State) :
    (l.foldl (State.takeIn zone a) s).zt = s.zt := foldl_keeps (fun s => s.zt) _ (fun s i => by simp) l s

theorem State.decided_commitIn {l : Lock} (zone : s.hatchZone h = some (z, g)) (record : s.lock g.lock = some l)
    (cause : HandoverCause) : (s.commitIn h cause).decided g.lock
      = some (l.claims.setHandover h false, (l.claims.setHandover h false).command) := by
  unfold State.commitIn
  dsimp only
  rw [State.decided_endExchange, State.decided_dropHandoverClaim (z := z)]
  · rw [State.hatchZone_congr (State.zt_foldl_takeIn _ _ _ s), zone]
  · rw [State.lock_congr (State.la_foldl_takeIn _ _ _ s), record]

theorem State.lock_inIntake {l : Lock} (zone : s.hatchZone h = some (z, g)) (record : s.lock g.lock = some l) :
    ∃ l', (s.inIntake h).lock g.lock = some l' ∧ l'.claims = l.claims.setHandover h false := by
  obtain ⟨l', found, claims⟩ := State.lock_of_decided (State.decided_dropHandoverClaim zone record)
  exact ⟨l', (State.lock_congr (by simp [State.inIntake]) g.lock).trans found, claims⟩

theorem Claims.setHandover_twice (c : Claims) (h : Hatch) (on : Bool) :
    (c.setHandover h on).setHandover h on = c.setHandover h on := by cases h <;> rfl

end

/-! ## An outbound commit (R149, R177) -/

/-- What an outbound commit makes of a record (R177). -/
def Cartridge.handedOut (c : Cartridge) (courier : Option Nat) (due : Nat) : Cartridge :=
  { c with state := .away, courier := courier, dueBack := some due, order := none, hatch := none, overdue := false }

section

variable {s : State} {i j n m id due : Nat} {c : Cartridge}

theorem State.handOut_absent {courier : Option Nat} (none : s.cartridge i = none) : State.handOut courier due s i = s := by
  unfold State.handOut
  rw [none]

theorem State.handOut_record (record : s.cartridge i = some c) : State.handOut (some id) due s i
    = ((s.setCartridge i (c.handedOut (some id) due)).closeOrderOf c.order .done).raiseHeld id := by
  unfold State.handOut
  rw [record]
  rfl

theorem State.cartridge_handOut_same (record : s.cartridge i = some c) :
    (State.handOut (some id) due s i).cartridge i = some (c.handedOut (some id) due) := by
  rw [State.handOut_record record, State.cartridge,
    show (State.raiseHeld _ id).cat = (s.setCartridge i (c.handedOut (some id) due)).cat by simp]
  exact Table.get_put_same _ _ _

theorem State.cartridge_handOut_other (s : State) (id due : Nat) {i j : Nat} (other : j ≠ i) :
    (State.handOut (some id) due s i).cartridge j = s.cartridge j := by
  cases record : s.cartridge i with
  | none => rw [State.handOut_absent record]
  | some c =>
    rw [State.handOut_record record, State.cartridge,
      show (State.raiseHeld _ id).cat = (s.setCartridge i (c.handedOut (some id) due)).cat by simp]
    exact Table.get_put_other _ _ other

theorem State.order_closeOrderOf (s : State) (n : Option Nat) (m : Nat) (why : OrderReason) :
    (s.closeOrderOf n why).order m = if n = some m then none else s.order m := by
  cases n with
  | none => rfl
  | some n =>
    rw [show s.closeOrderOf (some n) why = s.closeOrder n why from rfl, State.order_closeOrder]
    simp only [Option.some.injEq, eq_comm]

theorem State.order_handOut (s : State) (id due i m : Nat) : (State.handOut (some id) due s i).order m
    = if (s.cartridge i).bind (·.order) = some m then none else s.order m := by
  cases record : s.cartridge i with
  | none => simp [State.handOut_absent record]
  | some c =>
    rw [State.handOut_record record, State.order_congr (State.raiseHeld_frame _ id).2.2.2.2.2.2.2.2.2.2.1,
      State.order_closeOrderOf]
    rfl

/-- Each record of the manifest is handed out, and its order closed. -/
theorem State.foldl_handOut (id due : Nat) (l : List Nat) (distinct : l.Nodup) (s : State) :
    (∀ j, (l.foldl (State.handOut (some id) due) s).cartridge j
        = if j ∈ l then (s.cartridge j).map (·.handedOut (some id) due) else s.cartridge j)
      ∧ (∀ n, (l.foldl (State.handOut (some id) due) s).order n
        = if ∃ j ∈ l, (s.cartridge j).bind (·.order) = some n then none else s.order n) := by
  induction l generalizing s with
  | nil => simp
  | cons i l ih =>
    obtain ⟨fresh, rest⟩ := List.nodup_cons.1 distinct
    obtain ⟨cartridges, orders⟩ := ih rest (State.handOut (some id) due s i)
    have later {j : Nat} (listed : j ∈ l) : (State.handOut (some id) due s i).cartridge j = s.cartridge j :=
      State.cartridge_handOut_other s id due fun same => fresh (same ▸ listed)
    refine ⟨fun j => ?_, fun n => ?_⟩ <;> rw [List.foldl_cons]
    · rw [cartridges]
      by_cases here : j = i
      · subst here
        rw [if_neg fresh, if_pos List.mem_cons_self]
        cases record : s.cartridge j with
        | none => rw [State.handOut_absent record, record, Option.map_none]
        | some c => rw [State.cartridge_handOut_same record, Option.map_some]
      · rw [State.cartridge_handOut_other s id due here]
        simp [here]
    · rw [orders, State.order_handOut]
      have same : (∃ j ∈ l, ((State.handOut (some id) due s i).cartridge j).bind (·.order) = some n)
          ↔ ∃ j ∈ l, (s.cartridge j).bind (·.order) = some n :=
        exists_congr fun j => and_congr_right fun listed => by rw [later listed]
      simp only [same, List.mem_cons, exists_eq_or_imp]
      by_cases own : (s.cartridge i).bind (·.order) = some n
      · simp [own]
      · simp [own]

end

theorem State.la_closeOrderOf (s : State) (n : Option Nat) (why : OrderReason) : (s.closeOrderOf n why).la = s.la := by
  cases n with
  | none => rfl
  | some n =>
    cases found : s.order n with
    | none => exact congrArg State.la (State.closeOrder_none found why)
    | some o =>
      obtain ⟨l, shape⟩ := State.closeOrder_shape found why
      exact (congrArg State.la shape).trans rfl

theorem State.la_handOut (courier : Option Nat) (due : Nat) (s : State) (i : Nat) :
    (State.handOut courier due s i).la = s.la := by
  unfold State.handOut
  cases s.cartridge i with
  | none => rfl
  | some c =>
    cases courier with
    | none => exact State.la_closeOrderOf _ _ _
    | some id => exact (State.raiseHeld_frame _ id).2.2.2.2.2.2.2.2.1.trans (State.la_closeOrderOf _ _ _)

/-! ## The courier's sum (R149) -/

/-- The party at `k` is the courier `id`, which holds `n`. -/
def State.courierHolds (s : State) (id k n : Nat) : Prop :=
  Table.wf s.pt.parties = true ∧ s.partyKey id = some k
    ∧ ∃ p c, Table.get s.pt.parties k = some p ∧ p.courier = some c ∧ c.held = n

section

variable {s t : State} {id k n due i : Nat}

theorem State.courierHolds_congr (same : t.pt = s.pt) (holds : s.courierHolds id k n) : t.courierHolds id k n := by
  unfold State.courierHolds State.partyKey
  rw [same]
  exact holds

theorem State.heldCount_of_holds (holds : s.courierHolds id k n) : s.heldCount id = n := by
  obtain ⟨-, key, p, c, entry, courier, held⟩ := holds
  simp [State.heldCount, State.party, key, entry, courier, held]

theorem State.courierHolds_raise (holds : s.courierHolds id k n) : (s.raiseHeld id).courierHolds id k (n + 1) := by
  obtain ⟨w, key, p, c, entry, courier, rfl⟩ := holds
  have parties : (s.raiseHeld id).pt.parties
      = Table.put s.pt.parties k { p with courier := some { c with held := c.held + 1 } } := by
    simp [State.raiseHeld, State.changeHeld, key, entry, courier]
  refine ⟨State.changeHeld_wf w id _, ?_, { p with courier := some { c with held := c.held + 1 } }, _, ?_, rfl, rfl⟩
  · rw [State.partyKey, parties]
    exact (Table.findKey_put (b := { p with courier := some { c with held := c.held + 1 } }) w entry rfl).trans key
  · rw [parties]
    exact Table.get_put_same _ _ _

theorem State.courierHolds_handOut {c : Cartridge} (record : s.cartridge i = some c) (holds : s.courierHolds id k n) :
    (State.handOut (some id) due s i).courierHolds id k (n + 1) := by
  rw [State.handOut_record record]
  exact State.courierHolds_raise (State.courierHolds_congr (by simp) holds)

theorem State.courierHolds_foldl (id due : Nat) {l : List Nat} (distinct : l.Nodup) {s : State}
    (records : ∀ i ∈ l, (s.cartridge i).isSome = true) (holds : s.courierHolds id k n) :
    (l.foldl (State.handOut (some id) due) s).courierHolds id k (n + l.length) := by
  induction l generalizing s n with
  | nil => exact holds
  | cons i l ih =>
    obtain ⟨fresh, rest⟩ := List.nodup_cons.1 distinct
    obtain ⟨c, record⟩ := Option.isSome_iff_exists.1 (records i List.mem_cons_self)
    have later := ih (s := State.handOut (some id) due s i) rest (fun j listed => ?_) (State.courierHolds_handOut record holds)
    · rw [List.foldl_cons, List.length_cons, Nat.add_comm l.length, ← Nat.add_assoc]
      exact later
    · rw [State.cartridge_handOut_other s id due (ne_of_mem_of_not_mem listed fresh)]
      exact records j (List.mem_cons_of_mem _ listed)

theorem Order.count_filter {l : List Order} (distinct : (l.map (·.number)).Nodup) {o : Order} (listed : o ∈ l)
    (courier : o.courier = id) : ((l.filter (fun p => p.number ≠ o.number)).filter (fun p => p.courier = id)).length + 1
      = (l.filter (fun p => p.courier = id)).length := by
  induction l with
  | nil => exact absurd listed List.not_mem_nil
  | cons q l ih =>
    obtain ⟨fresh, rest⟩ := List.nodup_cons.1 distinct
    rcases List.mem_cons.1 listed with rfl | later
    · have kept : l.filter (fun p => p.number ≠ o.number) = l :=
        List.filter_eq_self.2 fun p mem => by
          simpa using fun same => fresh (List.mem_map.2 ⟨p, mem, same⟩)
      rw [List.filter_cons_of_neg (by simp), kept, List.filter_cons_of_pos (by simpa using courier), List.length_cons]
    · have other : q.number ≠ o.number := fun same => fresh (List.mem_map.2 ⟨o, later, same.symm⟩)
      have shorter := ih rest later
      rw [List.filter_cons_of_pos (by simpa using other)]
      by_cases own : q.courier = id
      · rw [List.filter_cons_of_pos (by simpa using own), List.filter_cons_of_pos (by simpa using own), List.length_cons,
          List.length_cons, shorter]
      · rw [List.filter_cons_of_neg (by simpa using own), List.filter_cons_of_neg (by simpa using own), shorter]

theorem State.ol_handOut {c : Cartridge} {o : Order} (record : s.cartridge i = some c) (names : c.order = some n)
    (found : s.order n = some o) :
    (State.handOut (some id) due s i).ol.orders = s.ol.orders.filter (fun p => p.number ≠ n) := by
  obtain ⟨l, shape⟩ := State.closeOrder_shape (s := s.setCartridge i (c.handedOut (some id) due)) found .done
  rw [State.handOut_record record, names, (State.raiseHeld_frame _ id).2.2.2.2.2.2.2.2.2.2.1]
  show (State.closeOrder _ n .done).ol.orders = _
  rw [shape]
  rfl

/-- Each record of the manifest takes one open order of the courier with it. -/
theorem State.openOrders_foldl_handOut (id due : Nat) {l : List Nat} (distinct : l.Nodup) {s : State}
    (open_ : ∀ i ∈ l, ∃ n o, (s.cartridge i).bind (·.order) = some n ∧ s.order n = some o ∧ o.courier = id)
    (numbers : (s.ol.orders.map (·.number)).Nodup) (own : (l.map (fun i => (s.cartridge i).bind (·.order))).Nodup) :
    let t := l.foldl (State.handOut (some id) due) s
    t.openOrders id + l.length = s.openOrders id ∧ (t.ol.orders.map (·.number)).Nodup := by
  induction l generalizing s with
  | nil => exact ⟨rfl, numbers⟩
  | cons i l ih =>
    obtain ⟨fresh, rest⟩ := List.nodup_cons.1 distinct
    obtain ⟨ownFresh, ownRest⟩ := List.nodup_cons.1 own
    obtain ⟨n, o, names, found, courier⟩ := open_ i List.mem_cons_self
    obtain ⟨c, record, named⟩ := Option.bind_eq_some_iff.1 names
    have orders := State.ol_handOut (id := id) (due := due) record named found
    have later {j : Nat} (listed : j ∈ l) : (State.handOut (some id) due s i).cartridge j = s.cartridge j :=
      State.cartridge_handOut_other s id due fun same => fresh (same ▸ listed)
    have stillOpen : ∀ j ∈ l, ∃ n o, ((State.handOut (some id) due s i).cartridge j).bind (·.order) = some n
        ∧ (State.handOut (some id) due s i).order n = some o ∧ o.courier = id := fun j listed => by
      obtain ⟨m, p, names', found', courier'⟩ := open_ j (List.mem_cons_of_mem _ listed)
      refine ⟨m, p, by rw [later listed, names'], ?_, courier'⟩
      rw [State.order_handOut, names, if_neg, found']
      exact fun same => ownFresh (List.mem_map.2 ⟨j, listed, names'.trans (same.symm.trans names.symm)⟩)
    have stillNodup : ((State.handOut (some id) due s i).ol.orders.map (·.number)).Nodup := by
      rw [orders]
      exact numbers.sublist (List.filter_sublist.map _)
    have stillOwn : (l.map (fun j => ((State.handOut (some id) due s i).cartridge j).bind (·.order))).Nodup := by
      rw [List.map_congr_left fun j listed => by rw [later listed]]
      exact ownRest
    obtain ⟨count, nodup⟩ := ih rest stillOpen stillNodup stillOwn
    refine ⟨?_, nodup⟩
    have one : (State.handOut (some id) due s i).openOrders id + 1 = s.openOrders id := by
      unfold State.openOrders
      rw [orders, ← State.order_number found]
      exact Order.count_filter numbers (List.mem_of_find?_eq_some found) courier
    rw [List.foldl_cons, List.length_cons]
    omega

theorem State.SameOrders.openOrders (same : State.SameOrders s t) (numbers : (s.ol.orders.map (·.number)).Nodup) (id : Nat) :
    t.openOrders id = s.openOrders id := by
  have cores {u : State} (distinct : (u.ol.orders.map (·.number)).Nodup) :
      u.ol.orders.map (fun o => some o.core) = (u.ol.orders.map (·.number)).map (fun n => (u.order n).map Order.core) := by
    rw [List.map_map]
    exact List.map_congr_left fun o mem => by simp [State.order_of_mem distinct mem]
  have counts (u : State) : u.openOrders id
      = (u.ol.orders.map (fun o => some o.core)).countP (fun x => x.map (·.courier) = some id) := by
    rw [State.openOrders, ← List.countP_eq_length_filter, List.countP_map]
    exact List.countP_congr fun o _ => by simp [Order.core]
  rw [counts t, counts s, cores (same.numbers ▸ numbers), cores numbers, same.numbers]
  simp only [same.core]

end

section

variable {s : State} {h : Hatch} {id k : Nat} {p : Party} {cf : CourierFields}

theorem State.commitOut_eq (courier : (s.engine h).courier = some id) (key : s.partyKey id = some k)
    (entry : Table.get s.pt.parties k = some p) (fields : p.courier = some cf) :
    let due := min (s.ti.clock + cf.loan * 86400) 4294967295
    s.commitOut h = (((s.engine h).list.foldl (State.handOut (some id) due) s).dropHandoverClaim h).endExchange h .doorClosed
      (s.listed (s.engine h).list) (some due) none := by
  have due : s.dueBackOf (some id) = min (s.ti.clock + cf.loan * 86400) 4294967295 := by
    simp [State.dueBackOf, State.party, key, entry, fields]
  unfold State.commitOut
  dsimp only
  rw [courier, due]

theorem State.decided_commitOut {z : Nat} {g : HandoverGroup} {l : Lock} (zone : s.hatchZone h = some (z, g))
    (record : s.lock g.lock = some l) : (s.commitOut h).decided g.lock
      = some (l.claims.setHandover h false, (l.claims.setHandover h false).command) := by
  have la (courier : Option Nat) (due : Nat) : ((s.engine h).list.foldl (State.handOut courier due) s).la = s.la :=
    foldl_keeps (fun s => s.la) _ (fun s i => State.la_handOut courier due s i) _ s
  have zt (courier : Option Nat) (due : Nat) : ((s.engine h).list.foldl (State.handOut courier due) s).zt = s.zt :=
    foldl_keeps (fun s => s.zt) _ (fun s i => by simp) _ s
  unfold State.commitOut
  dsimp only
  rw [State.decided_endExchange, State.decided_dropHandoverClaim (z := z)]
  · rw [State.hatchZone_congr (zt _ _), zone]
  · rw [State.lock_congr (la _ _), record]

theorem State.engine_commitOut_other (s : State) {h j : Hatch} (other : j ≠ h) : (s.commitOut h).engine j = s.engine j := by
  have engine (courier : Option Nat) (due : Nat) :
      ((s.engine h).list.foldl (State.handOut courier due) s).engine j = s.engine j :=
    foldl_keeps (fun s => s.engine j) _ (fun s i => State.engine_congr (by simp) (by simp) j) _ s
  unfold State.commitOut
  dsimp only
  rw [State.engine_endExchange_other _ other, State.engine_dropHandoverClaim, engine]

end

/-- Settles O48: the fold over the manifest, the courier's count beside it, and the end that moves none of the two. -/
theorem outboundCommitHandsOut : Obligations.OutboundCommitHandsOut := by
  intro s h id k p cf m courier distinct records key entry _ fields w t
  obtain ⟨due, isDue⟩ : ∃ due, due = min (s.ti.clock + cf.loan * 86400) 4294967295 := ⟨_, rfl⟩
  obtain ⟨u, isU⟩ : ∃ u, u = m.foldl (State.handOut (some id) due) s := ⟨_, rfl⟩
  have shape : t = (u.dropHandoverClaim h).endExchange h .doorClosed (s.listed m) (some due) none := by
    rw [isU, isDue]
    exact State.commitOut_eq courier key entry fields
  obtain ⟨cartridges, orders⟩ := isU ▸ State.foldl_handOut id due m distinct s
  have same : State.SameOrders u t := shape ▸ (State.SameOrders.dropHandoverClaim u h).trans
    (State.SameOrders.endExchange _ h .doorClosed (s.listed m) (some due) none)
  have catalogue (i : Nat) : t.cartridge i = u.cartridge i := by
    rw [shape]
    simp [State.cartridge]
  have holds : u.courierHolds id k (cf.held + m.length) :=
    isU ▸ State.courierHolds_foldl id due distinct records ⟨w, key, p, cf, entry, fields, rfl⟩
  have held : t.heldCount id = cf.held + m.length :=
    State.heldCount_of_holds (State.courierHolds_congr (by rw [shape]; simp) holds)
  refine ⟨fun i c listed record => ⟨?_, fun n names => ?_⟩, fun i other => ?_, fun n o found free => ?_, held, ?_,
    fun open_ numbers own => ?_⟩
  · rw [catalogue, cartridges, if_pos listed, record, ← isDue]
    rfl
  · have closed : u.order n = none := by
      rw [orders, if_pos ⟨i, listed, by rw [record]; exact names⟩]
    have core := same.core n
    rw [closed] at core
    exact Option.map_eq_none_iff.1 core
  · rw [catalogue, cartridges, if_neg other]
  · have stands : u.order n = some o := by
      rw [orders, if_neg, found]
      rintro ⟨i, listed, names⟩
      exact free i listed names
    have core := same.core n
    rw [stands] at core
    obtain ⟨o', found', cores⟩ := Option.map_eq_some_iff.1 core
    have kept := congrArg Order.courier cores
    exact ⟨o', found', kept⟩
  · exact State.engine_setEngine_same _ _ _
  · obtain ⟨count, nodup⟩ := isU ▸ State.openOrders_foldl_handOut id due distinct open_ numbers own
    have before : s.heldCount id = cf.held := State.heldCount_of_holds ⟨w, key, p, cf, entry, fields, rfl⟩
    rw [State.courierSum, State.courierSum, held, before, same.openOrders nodup]
    omega

/-! ## The hatch door (R172, R174, R177) -/

/-- Settles O47: the door's course by its direction and the fire, and the claim by the decisions of the hatch lock. -/
theorem doorCompletesTheExchange : Obligations.DoorCompletesTheExchange := by
  refine ⟨?_, ?_⟩
  · intro s h z g release zone e t intake fire unclaimed
    have closed := State.engineDoor_closed release
    refine ⟨State.engineDoor_opened release, fun before => ?_, fun marked out => ?_, fun marked inward calm => ?_,
      fun marked inward fires => ?_⟩
    · exact closed.trans (if_neg (by rw [show (s.engine h).doorOpened = false from before]; exact Bool.false_ne_true))
    · have row : t = s.commitOut h := by
        refine closed.trans ((if_pos marked).trans ?_)
        rw [show (s.engine h).direction = some .out from out]
      refine ⟨row, ?_, ?_, fun l record => ?_⟩
      · rw [row]
        exact State.engine_setEngine_same _ _ _
      · intro k other
        rw [row, State.engine_commitOut_other s other]
      · rw [row]
        exact State.lock_of_decided (State.decided_commitOut zone record)
    · have row : t = s.inIntake h := by
        refine closed.trans ((if_pos marked).trans ?_)
        rw [show (s.engine h).direction = some .inward from inward]
        exact (State.enterIntake_eq zone).trans (if_neg fun burning => calm (State.hatchFire_iff.1 burning))
      refine ⟨row, ?_, ?_, fun l record => ?_⟩
      · rw [row]
        exact State.engine_inIntake_same s h
      · intro k other
        rw [row, State.engine_inIntake_other s other]
      · rw [row]
        exact State.lock_inIntake zone record
    · have burning : s.hatchFire z = true := State.hatchFire_iff.2 fires
      have enters : t = s.enterIntake h := by
        refine closed.trans ((if_pos marked).trans ?_)
        rw [show (s.engine h).direction = some .inward from inward]
      have row : t = (s.inIntake h).commitIn h .fireCommit := enters.trans ((State.enterIntake_eq zone).trans (if_pos burning))
      have zoned : (s.inIntake h).hatchZone h = some (z, g) :=
        (State.hatchZone_congr (by simp [State.inIntake]) h).trans zone
      obtain ⟨staged, others⟩ := State.commitIn_stages zoned .fireCommit
      rw [State.engine_inIntake_same,
        State.acclimRequirement_congr (s := s) (by simp [State.inIntake]) (by simp [State.inIntake])] at staged
      rw [State.engine_inIntake_same] at others
      simp only [State.cartridge_inIntake] at staged others
      refine ⟨row, fun empty w => enters.trans (State.enterIntake_fire s h w empty z g zone burning), ?_, ⟨?_, ?_⟩, ?_, ?_⟩
      · rw [row]
        exact State.engine_commitIn_same _ h _
      · intro k other
        rw [row, State.engine_commitIn_other _ other, State.engine_inIntake_other s other]
      · intro l record
        obtain ⟨l', found, claims⟩ := State.lock_inIntake zone record
        rw [row, ← Claims.setHandover_twice, ← claims]
        exact State.lock_of_decided (State.decided_commitIn zoned found _)
      · rw [row]
        exact staged
      · rw [row]
        exact others
  · intro s it n l h offered record hatch
    have found : s.popRing.lock it.src = some l := record
    have moved {d : DoorState} (other : l.door ≠ d) (parsed : parseDoor it.payload = some d) :
        exec .doorState s = .next ((s.popRing.setLock it.src (l.doorMoved d)).engineDoor h d) := by
      rw [exec_doorState_of_offers offered, State.doorOf_moved parsed found other,
        show s.popRing.hatchOfLock it.src = some h from hatch]
    exact ⟨fun payload other => moved other (by rw [payload]; rfl), fun payload other => moved other (by rw [payload]; rfl)⟩

end Sys2Proof.Machine
end

section
/-! PROOFS about the minute epoch, the work of an epoch over the records, and a zone that goes stale (R59, R68, R72 to R75,
R135 to R138). -/

namespace Sys2Proof.Machine

/-! ## The work of one record (R135 to R138) -/

/-- What the work of an epoch reads beside the records stands. -/
structure State.EpochReads (s u : State) : Prop where
  fz       : u.fz = s.fz
  zt       : u.zt = s.zt
  clock    : u.ti.clock = s.ti.clock
  clockSet : u.ti.clockSet = s.ti.clockSet

/-- Step 2 of a record, for a threshold (R126, R136). -/
def Cartridge.inspected (c : Cartridge) (threshold : Nat) : Cartridge :=
  if 0 < threshold ∧ !c.inspect ∧ c.state ≠ .manifested ∧ threshold ≤ c.exposure then
    if c.order.isSome then { c.withoutOrder with inspect := true } else { c with inspect := true }
  else c

/-- Step 3 of a record, by whether its staging zone is IN_BAND and NORMAL (R137). -/
def Cartridge.acclimated (c : Cartridge) (calm : Nat → Bool) : Cartridge :=
  match c.state, c.staging with
  | .staging, some z =>
    if calm z then
      if c.acclim.getD 0 - 1 = 0 then { c with state := .ready, acclim := none }
      else { c with acclim := some (c.acclim.getD 0 - 1) }
    else c
  | _, _ => c

/-- Step 4 of a record, by the clock (R138). -/
def Cartridge.overdueAt (c : Cartridge) (clockSet : Bool) (clock : Nat) : Cartridge :=
  match c.dueBack with
  | some due => if (c.state = .away ∨ c.state = .inbound) ∧ !c.overdue ∧ clockSet ∧ due ≤ clock then { c with overdue := true } else c
  | none => c

/-- The staging zone is IN_BAND and NORMAL (R137). -/
def State.calmIn (s : State) (e : Epoch) (z : Nat) : Bool :=
  decide ((Epoch.at e z).status = .inBand ∧ (s.fire z).state = .normal)

theorem State.calmIn_iff (s : State) (e : Epoch) (z : Nat) :
    s.calmIn e z = true ↔ (Epoch.at e z).status = .inBand ∧ (s.fire z).state = .normal := decide_eq_true_iff

/-- The four steps of a record (R134). -/
def State.workedRecord (s : State) (e : Epoch) (c : Cartridge) : Cartridge :=
  (((s.exposed e c).inspected s.threshold).acclimated (s.calmIn e)).overdueAt s.ti.clockSet s.ti.clock

/-- From `s` to `t` the record `i` has become `c`, and nothing that the work of an epoch reads beside it has moved. -/
structure State.Turns (i : Nat) (c : Cartridge) (s t : State) : Prop where
  own    : t.cartridge i = some c
  others : ∀ j, j ≠ i → t.cartridge j = s.cartridge j
  reads  : State.EpochReads s t

namespace State.EpochReads

variable {s t u : State}

theorem refl (s : State) : EpochReads s s := ⟨rfl, rfl, rfl, rfl⟩

theorem trans (h : EpochReads s t) (k : EpochReads t u) : EpochReads s u :=
  ⟨k.fz.trans h.fz, k.zt.trans h.zt, k.clock.trans h.clock, k.clockSet.trans h.clockSet⟩

theorem closeOrderOf (s : State) (n : Option Nat) (why : OrderReason) : EpochReads s (s.closeOrderOf n why) := by
  cases n with
  | none => exact refl s
  | some n =>
    show EpochReads s (s.closeOrder n why)
    cases found : s.order n with
    | none => exact (State.closeOrder_none found why).symm ▸ refl s
    | some o =>
      obtain ⟨l, shape⟩ := State.closeOrder_shape found why
      rw [shape]
      exact ⟨rfl, rfl, rfl, rfl⟩

theorem threshold (h : EpochReads s u) : u.threshold = s.threshold := by
  unfold State.threshold
  rw [h.zt]

theorem calmIn (h : EpochReads s u) (e : Epoch) : u.calmIn e = s.calmIn e := by
  funext z
  unfold State.calmIn State.fire
  rw [h.fz]

theorem exposed (h : EpochReads s u) (e : Epoch) (c : Cartridge) : u.exposed e c = s.exposed e c := by
  have zones (k : Hatch) : u.hatchZone k = s.hatchZone k := State.hatchZone_congr h.zt k
  have current : u.currentZone c = s.currentZone c := by
    unfold State.currentZone
    simp only [zones]
  unfold State.exposed
  rw [current]

theorem workedRecord (h : EpochReads s u) (e : Epoch) (c : Cartridge) : u.workedRecord e c = s.workedRecord e c := by
  unfold State.workedRecord
  rw [h.exposed, h.threshold, h.calmIn, h.clock, h.clockSet]

end State.EpochReads

namespace State.Turns

variable {s t u : State} {i : Nat} {c d : Cartridge}

theorem trans (h : Turns i c s t) (k : Turns i d t u) : Turns i d s u :=
  ⟨k.own, fun j other => (k.others j other).trans (h.others j other), h.reads.trans k.reads⟩

theorem same (record : s.cartridge i = some c) : Turns i c s s := ⟨record, fun _ _ => rfl, State.EpochReads.refl s⟩

theorem setCartridge (s : State) (i : Nat) (c : Cartridge) : Turns i c s (s.setCartridge i c) :=
  ⟨State.cartridge_setCartridge_same s i c, fun _ other => State.cartridge_setCartridge_other s c other, ⟨rfl, rfl, rfl, rfl⟩⟩

theorem postCartridge (s : State) (i : Nat) (c : Cartridge) (before : CartState) (d : Cartridge) (q : Option Nat)
    (why : CartReason) : Turns i c s ((s.setCartridge i c).postCartridge i before d q why) := by
  obtain ⟨own, others, -⟩ := setCartridge s i c
  exact ⟨own, others, ⟨rfl, rfl, rfl, rfl⟩⟩

theorem closeOrderOf (h : Turns i c s t) (n : Option Nat) (why : OrderReason) : Turns i c s (t.closeOrderOf n why) := by
  have cartridges (j : Nat) : (t.closeOrderOf n why).cartridge j = t.cartridge j := by simp [State.cartridge]
  exact ⟨(cartridges i).trans h.own, fun j other => (cartridges j).trans (h.others j other),
    h.reads.trans (State.EpochReads.closeOrderOf t n why)⟩

theorem inspectStep (record : s.cartridge i = some c) : Turns i (c.inspected s.threshold) s (s.inspectStep i) := by
  unfold State.inspectStep Cartridge.inspected
  simp only [record]
  by_cases due : 0 < s.threshold ∧ !c.inspect ∧ c.state ≠ .manifested ∧ s.threshold ≤ c.exposure
  · rw [if_pos due, if_pos due]
    exact (postCartridge s i _ _ _ _ _).closeOrderOf _ _
  · rw [if_neg due, if_neg due]
    exact same record

theorem acclimStep (e : Epoch) (record : s.cartridge i = some c) :
    Turns i (c.acclimated (s.calmIn e)) s (s.acclimStep e i) := by
  unfold State.acclimStep Cartridge.acclimated
  simp only [record]
  cases state : c.state
  case staging =>
    cases staging : c.staging with
    | none => exact same record
    | some z =>
      simp only [State.calmIn, decide_eq_true_eq]
      by_cases calm : (Epoch.at e z).status = .inBand ∧ (s.fire z).state = .normal
      · rw [if_pos calm, if_pos calm]
        by_cases over_ : c.acclim.getD 0 - 1 = 0
        · rw [if_pos over_, if_pos over_]
          exact postCartridge s i _ _ _ _ _
        · rw [if_neg over_, if_neg over_]
          exact state ▸ staging ▸ setCartridge s i { c with acclim := some (c.acclim.getD 0 - 1) }
      · rw [if_neg calm, if_neg calm]
        exact same record
  all_goals exact same record

theorem overdueStep (record : s.cartridge i = some c) :
    Turns i (c.overdueAt s.ti.clockSet s.ti.clock) s (s.overdueStep i) := by
  unfold State.overdueStep Cartridge.overdueAt
  simp only [record]
  cases loan : c.dueBack with
  | none => exact same record
  | some due =>
    dsimp only
    by_cases late : (c.state = .away ∨ c.state = .inbound) ∧ !c.overdue ∧ s.ti.clockSet ∧ due ≤ s.ti.clock
    · rw [if_pos late, if_pos late]
      exact postCartridge s i _ _ _ _ _
    · rw [if_neg late, if_neg late]
      exact same record

theorem epochRecord (e : Epoch) (record : s.cartridge i = some c) :
    Turns i (s.workedRecord e c) s (State.epochRecord e s i) := by
  have first := setCartridge s i (s.exposed e c)
  have second := first.trans (inspectStep first.own)
  have third := second.trans (acclimStep e second.own)
  have fourth := third.trans (overdueStep third.own)
  have steps : State.epochRecord e s i
      = (((s.setCartridge i (s.exposed e c)).inspectStep i).acclimStep e i).overdueStep i := by
    unfold State.epochRecord
    rw [record]
  rw [first.reads.threshold, second.reads.calmIn, third.reads.clock, third.reads.clockSet] at fourth
  rw [steps]
  exact fourth

end State.Turns

section

variable {s : State} {e : Epoch} {i : Nat} {c : Cartridge}

theorem State.epochRecord_absent (none : s.cartridge i = none) : State.epochRecord e s i = s := by
  unfold State.epochRecord
  rw [none]

theorem State.epochRecord_reads (e : Epoch) (s : State) (i : Nat) : State.EpochReads s (State.epochRecord e s i) := by
  cases record : s.cartridge i with
  | none => exact (State.epochRecord_absent record).symm ▸ State.EpochReads.refl s
  | some c => exact (State.Turns.epochRecord e record).reads

theorem State.epochRecord_other (e : Epoch) (s : State) {i j : Nat} (other : j ≠ i) :
    (State.epochRecord e s i).cartridge j = s.cartridge j := by
  cases record : s.cartridge i with
  | none => rw [State.epochRecord_absent record]
  | some c => exact (State.Turns.epochRecord e record).others j other

/-- The records worked one by one: each is worked once, by what stood before the first. -/
theorem State.cartridge_foldl_epochRecord (e : Epoch) {l : List Nat} (distinct : l.Nodup) {s u : State}
    (reads : State.EpochReads s u) (i : Nat) : (l.foldl (State.epochRecord e) u).cartridge i
      = if i ∈ l then (u.cartridge i).map (s.workedRecord e) else u.cartridge i := by
  induction l generalizing u with
  | nil => simp
  | cons j l ih =>
    obtain ⟨fresh, rest⟩ := List.nodup_cons.1 distinct
    rw [List.foldl_cons, ih rest (reads.trans (State.epochRecord_reads e u j))]
    by_cases here : i = j
    · subst here
      rw [if_neg fresh, if_pos List.mem_cons_self]
      cases record : u.cartridge i with
      | none => rw [State.epochRecord_absent record, record, Option.map_none]
      | some c => rw [(State.Turns.epochRecord e record).own, Option.map_some, reads.workedRecord]
    · rw [State.epochRecord_other e u here]
      simp [here]

theorem State.cartridge_epochWork (w : Table.wf s.cat.cartridges = true) (record : s.cartridge i = some c) {v : State}
    (reads : State.EpochReads v s) : (s.epochWork e).cartridge i = some (v.workedRecord e c) := by
  have listed : i ∈ s.cat.cartridges.map (·.1) := List.mem_map.2 ⟨(i, c), Table.get_mem record, rfl⟩
  refine (State.cartridge_foldl_epochRecord e (Table.keys_nodup w) reads i).trans ?_
  rw [if_pos listed, record, Option.map_some]

end

/-! ## The expiry of the epoch timer (R72 to R74) -/

section

variable {s : State}

theorem exec_minuteEpoch_due (due : s.cu.epochTimer = 0) : exec .minuteEpoch s = .next s.epochExpiry :=
  congrArg Host.Outcome.next (if_pos due)

/-- The epoch timer restarted (R72). -/
def State.epochRestarted (s : State) : State := { s with cu := { s.cu with epochTimer := 6000 } }

theorem State.epochExpiry_busy (busy : s.catBusy = true) : s.epochExpiry
    = ({ s with cu := { s.cu with epochTimer := 6000, epochs := holdEpoch s.cu.epochs s.formEpoch } } : State).ordersEpoch :=
  congrArg State.ordersEpoch (if_pos busy)

theorem State.epochExpiry_ready (ready : s.catBusy = false) : s.epochExpiry
    = (s.epochRestarted.epochWork s.formEpoch).ordersEpoch :=
  congrArg State.ordersEpoch (if_neg fun busy => Bool.false_ne_true (ready.symm.trans busy))

theorem State.formEpoch_getElem {z : Nat} (small : z < 16) :
    s.formEpoch[z]? = some { excess := excessOf (s.climateGroup z) (s.climate z), status := (s.climate z).status } := by
  simp [State.formEpoch, zoneNumbers, small]

theorem excessOf_eq (g : Option ClimateGroup) (c : Climate) : excessOf g c = (match g, c.fRH with
    | some g, some f =>
      if c.status = .high then (f - g.hi).toNat else if c.status = .low then ((g.lo : Int) - f).toNat else 0
    | _, _ => 0) := by
  unfold excessOf
  cases g with
  | none => rfl
  | some g =>
    cases c.fRH with
    | none => rfl
    | some f => cases c.status <;> rfl

end

/-! ## A record before and after its four steps -/

theorem CartState.inZone_iff (c : CartState) : c.inZone = true
    ↔ c = .shelved ∨ c = .ordered ∨ c = .picked ∨ c = .staging ∨ c = .ready := by
  cases c <;> simp [CartState.inZone]

section

variable {c : Cartridge} {calm : Nat → Bool} {threshold clock z : Nat} {clockSet : Bool}

theorem Cartridge.acclimated_still (still : ¬ (c.state = .staging ∧ ∃ z, c.staging = some z ∧ calm z = true)) :
    c.acclimated calm = c := by
  unfold Cartridge.acclimated
  split
  · next z state staging => exact if_neg fun calm => still ⟨state, z, staging, calm⟩
  · rfl

theorem Cartridge.acclimated_calm (state : c.state = .staging) (staging : c.staging = some z) (quiet : calm z = true) :
    c.acclimated calm = if c.acclim.getD 0 - 1 = 0 then { c with state := .ready, acclim := none }
      else { c with acclim := some (c.acclim.getD 0 - 1) } := by
  unfold Cartridge.acclimated
  rw [state, staging]
  exact (if_pos quiet).trans (by rw [← state, ← staging])

theorem Cartridge.overdueAt_still (still : ¬ ((c.state = .away ∨ c.state = .inbound) ∧ c.overdue = false ∧ clockSet = true
    ∧ ∃ due, c.dueBack = some due ∧ due ≤ clock)) : c.overdueAt clockSet clock = c := by
  unfold Cartridge.overdueAt
  split
  · next due loan =>
    refine if_neg fun late => still ?_
    obtain ⟨state, fresh, set, past⟩ := late
    exact ⟨state, by simpa using fresh, set, due, loan, past⟩
  · rfl

theorem Cartridge.overdueAt_late (late : (c.state = .away ∨ c.state = .inbound) ∧ c.overdue = false ∧ clockSet = true
    ∧ ∃ due, c.dueBack = some due ∧ due ≤ clock) : c.overdueAt clockSet clock = { c with overdue := true } := by
  obtain ⟨state, fresh, set, due, loan, past⟩ := late
  unfold Cartridge.overdueAt
  rw [loan]
  exact (if_pos ⟨state, by simpa using fresh, set, past⟩).trans (by rw [← loan])

/-- What steps 1 and 2 leave of a record for steps 3 and 4. -/
theorem Cartridge.inspected_keeps (c : Cartridge) (threshold : Nat) : (c.inspected threshold).staging = c.staging
    ∧ (c.inspected threshold).acclim = c.acclim ∧ (c.inspected threshold).dueBack = c.dueBack
    ∧ (c.inspected threshold).overdue = c.overdue
    ∧ (c.state ≠ .ordered → (c.inspected threshold).state = c.state)
    ∧ (c.state = .ordered → (c.inspected threshold).state = .ordered ∨ (c.inspected threshold).state = .shelved) := by
  unfold Cartridge.inspected Cartridge.withoutOrder
  split
  · split
    · exact ⟨rfl, rfl, rfl, rfl, fun other => if_neg other, fun ordered => .inr (if_pos ordered)⟩
    · exact ⟨rfl, rfl, rfl, rfl, fun _ => rfl, .inl⟩
  · exact ⟨rfl, rfl, rfl, rfl, fun _ => rfl, .inl⟩

theorem Cartridge.inspected_state_iff (c : Cartridge) (threshold : Nat) {st : CartState} (shelved : st ≠ .shelved)
    (ordered : st ≠ .ordered) : (c.inspected threshold).state = st ↔ c.state = st := by
  obtain ⟨-, -, -, -, other, own⟩ := c.inspected_keeps threshold
  by_cases here : c.state = .ordered
  · have left : (c.inspected threshold).state ≠ st := by
      rcases own here with now | now <;> rw [now]
      · exact ordered.symm
      · exact shelved.symm
    exact ⟨fun h => absurd h left, fun h => absurd (here.symm.trans h) ordered.symm⟩
  · rw [other here]

end

/-- Settles O25: the expiry by the work of CAT, each record by its four steps, and the stale zone by its record. -/
theorem epochsAreHeldAndZonesGoStale : Obligations.EpochsAreHeldAndZonesGoStale := by
  refine ⟨fun s running => congrArg Host.Outcome.next (if_neg running), ?_,
    fun s z running => congrArg Host.Outcome.next (if_neg fun due => running ((timerDue_iff _).1 due)), ?_, ?_, ?_⟩
  · intro s due e
    rw [exec_minuteEpoch_due due]
    cases work : s.catBusy with
    | true =>
      rw [State.epochExpiry_busy work]
      refine ⟨_, rfl, ?_⟩
      simp only [State.ordersEpoch_frame, Bool.true_eq_false, false_implies, true_implies, and_true, true_and]
      rcases s.cu.epochs with _ | ⟨a, _ | ⟨b, l⟩⟩ <;> rfl
    | false =>
      rw [State.epochExpiry_ready work]
      refine ⟨_, rfl, ?_⟩
      simp only [State.ordersEpoch_frame, State.epochWork_frame, Bool.false_eq_true, false_implies, true_implies, and_true]
      exact ⟨rfl, rfl, rfl, rfl, rfl, rfl, rfl, rfl⟩
  · intro s z shaped small due
    have place : z < s.cu.climate.length := by
      rw [State.shaped_climate_length shaped]
      exact small
    refine ⟨_, congrArg Host.Outcome.next (if_pos ((timerDue_iff _).2 due)), ?_, fun y other => ?_, by simp, by simp, by simp,
      by simp, by simp, by simp⟩
    · unfold State.becomeStale
      dsimp only
      rw [State.climate_demandReport, State.climate_postClimate, State.climate_setClimate_same place]
    · unfold State.becomeStale
      dsimp only
      rw [State.climate_demandReport, State.climate_postClimate, State.climate_setClimate_other s _ other]
  · intro s z small c
    rw [State.formEpoch_getElem small, excessOf_eq] <;> rfl
  · intro s i c due ready w record figures sums c1 overThreshold c2 counts left late
    have row : exec .minuteEpoch s = .next (s.epochRestarted.epochWork s.formEpoch).ordersEpoch := by
      rw [exec_minuteEpoch_due due, State.epochExpiry_ready ready]
    have exposed : s.exposed s.formEpoch c = c1 := by
      simp only [State.exposed, c1]
      cases s.currentZone c with
      | none => cases c.state.inZone <;> rfl
      | some z =>
        cases stands : c.state.inZone with
        | true => exact (if_pos ((CartState.inZone_iff c.state).1 stands)).symm
        | false => exact (if_neg fun h => by simp [(CartState.inZone_iff c.state).2 h] at stands).symm
    have kept : ∃ x, c1 = { c with exposure := x } := by
      simp only [c1]
      split
      · split
        · exact ⟨_, rfl⟩
        · exact ⟨c.exposure, rfl⟩
      · exact ⟨c.exposure, rfl⟩
    have inspected : c1.inspected s.threshold = c2 := by
      obtain ⟨x, exposure⟩ := kept
      simp only [Cartridge.inspected, c2, overThreshold, exposure, Cartridge.withoutOrder]
      simp
    have worked : ((s.epochRestarted.epochWork s.formEpoch).ordersEpoch).cartridge i
        = some ((c2.acclimated (s.calmIn s.formEpoch)).overdueAt s.ti.clockSet s.ti.clock) := by
      have one := State.cartridge_epochWork (s := s.epochRestarted) (e := s.formEpoch) (v := s) w record ⟨rfl, rfl, rfl, rfl⟩
      unfold State.workedRecord at one
      rw [exposed, inspected] at one
      rw [← one]
      simp [State.cartridge]
    have fields : c2.staging = c.staging ∧ c2.acclim = c.acclim ∧ c2.dueBack = c.dueBack ∧ c2.overdue = c.overdue
        ∧ (∀ st, st ≠ .shelved → st ≠ .ordered → (c2.state = st ↔ c.state = st)) := by
      obtain ⟨x, exposure⟩ := kept
      obtain ⟨staging, acclim, dueBack, overdue, -⟩ := c1.inspected_keeps s.threshold
      have states (st : CartState) (shelved : st ≠ .shelved) (ordered : st ≠ .ordered) :=
        c1.inspected_state_iff s.threshold shelved ordered
      rw [inspected] at staging acclim dueBack overdue states
      simp only [exposure] at staging acclim dueBack overdue states
      exact ⟨staging, acclim, dueBack, overdue, states⟩
    obtain ⟨staging, acclim, dueBack, overdue, states⟩ := fields
    have countsIff : (c2.state = .staging ∧ ∃ z, c2.staging = some z ∧ s.calmIn s.formEpoch z = true) ↔ counts := by
      simp only [staging, states .staging (by decide) (by decide), State.calmIn_iff, counts, figures, Epoch.at]
    have lateIff : ((c2.state = .away ∨ c2.state = .inbound) ∧ c2.overdue = false ∧ s.ti.clockSet = true
        ∧ ∃ due, c2.dueBack = some due ∧ due ≤ s.ti.clock) ↔ late := by
      simp only [overdue, dueBack, states .away (by decide) (by decide), states .inbound (by decide) (by decide), late]
    refine ⟨_, row, fun still early => ?_, fun counting last => ?_, fun counting more => ?_, fun overdueNow => ?_⟩ <;> rw [worked]
    · rw [Cartridge.acclimated_still (countsIff.not.2 still), Cartridge.overdueAt_still (lateIff.not.2 early)]
    · obtain ⟨state, z, zone, calm⟩ := countsIff.2 counting
      rw [Cartridge.acclimated_calm state zone calm, if_pos (by rw [acclim]; exact last), Cartridge.overdueAt_still]
      rintro ⟨state' | state', -⟩ <;> cases state'
    · obtain ⟨state, z, zone, calm⟩ := countsIff.2 counting
      rw [Cartridge.acclimated_calm state zone calm, acclim, if_neg more, Cartridge.overdueAt_still]
      rintro ⟨state' | state', -⟩ <;> exact absurd (state.symm.trans state') (by decide)
    · obtain ⟨away, -⟩ := lateIff.2 overdueNow
      rw [Cartridge.acclimated_still, Cartridge.overdueAt_late (lateIff.2 overdueNow)]
      rintro ⟨state, -⟩
      rcases away with state' | state' <;> exact absurd (state.symm.trans state') (by decide)

end Sys2Proof.Machine
end

section
/-! PROOFS about the plant: the units under timers, demand, outcomes, shutdown and recovery (R80 to R92). -/

namespace Sys2Proof.Machine

section

variable {s : State} {z : Nat} {r : Role} {a b : Actuator}

@[simp] theorem State.actuator_setActuator_same (s : State) (z : Nat) (r : Role) (a : Actuator) :
    (s.setActuator z r a).actuator z r = some a := Table.get_put_same _ _ _

/-! ## Telegrams to a unit (R82, R84, R85) -/

theorem State.queueOff_attached (record : s.actuator z r = some a) (attached : s.attached a = true)
    (room : s.lif.txq.length < 24) (before : ActState) : s.queueOff z r before = s.placeTx (actRequest z a false .off) := by
  unfold State.queueOff
  rw [record]
  exact (if_pos attached).trans (State.requestTx_room room)

theorem State.startUnit_attached (record : s.actuator z r = some a) (attached : s.attached a = true)
    (room : s.lif.txq.length < 24) : s.startUnit z r
      = (s.setActuator z r { a with state := .starting, run := .stopped, rest := none, owed := false }).placeTx
        (actRequest z a true .startOn) := by
  unfold State.startUnit
  rw [record]
  exact (if_pos attached).trans (State.requestTx_room room)

theorem State.stopUnit_attached (record : s.actuator z r = some a) (attached : s.attached a = true)
    (room : s.lif.txq.length < 24) : s.stopUnit z r
      = (s.setActuator z r { a with state := .stopping }).placeTx (actRequest z a false .stopOff) := by
  unfold State.stopUnit
  rw [record]
  exact (if_pos attached).trans (State.requestTx_room room)

theorem State.startUnit_detached (record : s.actuator z r = some a) (detached : s.attached a = false) :
    s.startUnit z r = s.failActuator z r .off true .detached := by
  unfold State.startUnit
  rw [record]
  exact if_neg (by rw [detached]; exact Bool.false_ne_true)

theorem State.stopUnit_detached (record : s.actuator z r = some a) (detached : s.attached a = false) :
    s.stopUnit z r = s.failActuator z r .running false .detached := by
  unfold State.stopUnit
  rw [record]
  exact if_neg (by rw [detached]; exact Bool.false_ne_true)

/-- A unit that fails: its record and its notice (R88). -/
theorem State.failActuator_fails (record : s.actuator z r = some a) (works : a.state ≠ .failed) (before : ActState) (on : Bool)
    (why : ActReason) :
    (s.failActuator z r before on why).actuator z r
        = some { a with state := .failed, run := .stopped, rest := none, owed := false }
      ∧ (s.failActuator z r before on why).ti = (s.post (.actuatorFailed z r a.node (some before) (some on) why)).ti := by
  unfold State.failActuator
  rw [record]
  dsimp only
  rw [if_neg works]
  exact ⟨State.actuator_setActuator_same s z r _, rfl⟩

/-! ## Timers and demand reports (R84 to R86, R90) -/

theorem State.runElapsed_of (record : s.actuator z r = some a) : s.runElapsed z r
    = if a.state = .running ∧ s.plantDecides z = true ∧ s.demandPresent z r = false then
        (s.setActuator z r { a with run := .elapsed }).stopUnit z r
      else s.setActuator z r { a with run := .elapsed } := by
  unfold State.runElapsed
  rw [record]
  simp only [Bool.and_eq_true, decide_eq_true_eq, Bool.not_eq_true', and_assoc]

theorem State.restOver_of (record : s.actuator z r = some a) : s.restOver z r
    = if s.plantDecides z = true ∧ s.demandPresent z r = true then
        (s.setActuator z r { a with state := .off, rest := none }).startUnit z r
      else s.setActuator z r { a with state := .off, rest := none } := by
  unfold State.restOver
  rw [record]
  simp only [Bool.and_eq_true]

theorem State.reportRecord_of (record : s.actuator z r = some a) : s.reportRecord z r
    = if s.plantDecides z = true ∧ a.state = .off ∧ s.demandPresent z r = true then s.startUnit z r
      else if s.plantDecides z = true ∧ a.state = .running ∧ a.run = .elapsed ∧ ¬ s.demandPresent z r = true then
        s.stopUnit z r
      else if a.owed = true ∧ (a.state = .off ∨ a.state = .rest ∨ a.state = .shut) then
        (s.setActuator z r { a with owed := false }).queueOff z r a.state
      else s := by
  unfold State.reportRecord
  rw [record]
  simp only [Bool.and_eq_true, Bool.or_eq_true, decide_eq_true_eq, Bool.not_eq_true', Bool.not_eq_true, and_assoc, or_assoc]

theorem exec_runTimerExpiry_of (record : s.actuator z r = some a) :
    exec (.runTimerExpiry z r) s = .next (if a.run = .running 0 then s.runElapsed z r else s) := by
  refine congrArg Host.Outcome.next ?_
  rw [record]
  simp only [RunTimer.due_iff]

theorem exec_restTimerExpiry_of (record : s.actuator z r = some a) :
    exec (.restTimerExpiry z r) s = .next (if a.rest = some 0 then s.restOver z r else s) := by
  refine congrArg Host.Outcome.next ?_
  rw [record]
  simp only [timerDue_iff]

end

/-! ## What a unit's telegram leaves -/

/-- Beside the record and the queue nothing has moved; the record is `b`, and the telegram is placed. -/
def State.placedFor (s : State) (z : Nat) (r : Role) (b : Actuator) (q : TxRequest) (t : State) : Prop :=
  t = { s with pc := t.pc, lif := t.lif } ∧ t.actuator z r = some b ∧ t.lif = (s.placeTx q).lif

section

variable {s : State} {z : Nat} {r : Role} {a b c : Actuator} {q : TxRequest}

theorem State.placedFor_setActuator (s : State) (z : Nat) (r : Role) (b : Actuator) (q : TxRequest) :
    s.placedFor z r b q ((s.setActuator z r b).placeTx q) := ⟨rfl, State.actuator_setActuator_same s z r b, rfl⟩

theorem State.setActuator_setActuator (s : State) (z : Nat) (r : Role) (a b : Actuator) :
    (s.setActuator z r a).setActuator z r b = s.setActuator z r b :=
  congrArg (fun t => { s with pc := { s.pc with actuators := t } }) (Table.put_put s.pc.actuators (actKey z r) a b)

end

/-- The two timers of a unit (R84 to R86, R92). -/
theorem plantTimers (s : State) (z : Nat) (r : Role) (a : Actuator) (record : s.actuator z r = some a)
    (room : s.lif.txq.length < 24) :
    let off : TxRequest := actRequest z a false .stopOff
    let on : TxRequest := actRequest z a true .startOn
    (a.run ≠ .running 0 → exec (.runTimerExpiry z r) s = .next s)
      ∧ (a.rest ≠ some 0 → exec (.restTimerExpiry z r) s = .next s)
      ∧ (a.run = .running 0 → (s.plantDecides z = false ∨ s.demandPresent z r = true) →
        exec (.runTimerExpiry z r) s = .next (s.setActuator z r { a with run := .elapsed }))
      ∧ (a.run = .running 0 → a.state = .running → s.plantDecides z = true → s.demandPresent z r = false →
          s.attached a = true →
          ∃ t, exec (.runTimerExpiry z r) s = .next t ∧ s.placedFor z r { a with run := .elapsed, state := .stopping } off t)
      ∧ (a.rest = some 0 → (s.plantDecides z = false ∨ s.demandPresent z r = false) →
          exec (.restTimerExpiry z r) s = .next (s.setActuator z r { a with state := .off, rest := none }))
      ∧ (a.rest = some 0 → s.plantDecides z = true → s.demandPresent z r = true → s.attached a = true →
          ∃ t, exec (.restTimerExpiry z r) s = .next t
            ∧ s.placedFor z r { a with state := .starting, run := .stopped, rest := none, owed := false } on t) := by
  intro off on
  have runs := exec_runTimerExpiry_of record
  have rests := exec_restTimerExpiry_of record
  refine ⟨fun running => by rw [runs, if_neg running], fun running => by rw [rests, if_neg running], fun due still => ?_,
    fun due running decides gone attached => ?_, fun due still => ?_, fun due decides present attached => ?_⟩
  · rw [runs, if_pos due, State.runElapsed_of record, if_neg]
    rintro ⟨-, decides, gone⟩
    rcases still with still | still <;> simp_all
  · have stops := State.stopUnit_attached (s := s.setActuator z r { a with run := .elapsed })
      (State.actuator_setActuator_same s z r _) attached room
    rw [State.setActuator_setActuator] at stops
    rw [runs, if_pos due, State.runElapsed_of record, if_pos ⟨running, decides, gone⟩, stops]
    exact ⟨_, rfl, State.placedFor_setActuator s z r _ off⟩
  · rw [rests, if_pos due, State.restOver_of record, if_neg]
    rintro ⟨decides, present⟩
    rcases still with still | still <;> simp_all
  · have starts := State.startUnit_attached (s := s.setActuator z r { a with state := .off, rest := none })
      (State.actuator_setActuator_same s z r _) attached room
    rw [State.setActuator_setActuator] at starts
    rw [rests, if_pos due, State.restOver_of record, if_pos ⟨decides, present⟩, starts]
    exact ⟨_, rfl, State.placedFor_setActuator s z r _ on⟩

/-- A demand report on an attached unit, and the outcomes of a stale ON and of a removed record (R83 to R85, R90). -/
theorem plantReports (s : State) (z : Nat) (r : Role) (a : Actuator) (record : s.actuator z r = some a)
    (attached : s.attached a = true) (room : s.lif.txq.length < 24) :
    let sent (on : Bool) (p : ActPurpose) : TxRequest := actRequest z a on p
    let did (u : State) (b : Actuator) (on : Bool) (p : ActPurpose) : Prop := s.placedFor z r b (sent on p) u
    let decides := s.plantDecides z = true
    let wants := s.demandPresent z r = true
    let starts := decides ∧ a.state = .off ∧ wants
    let stops := decides ∧ a.state = .running ∧ a.run = .elapsed ∧ ¬ wants
    (starts → did (s.reportRecord z r) { a with state := .starting, run := .stopped, rest := none, owed := false } true
        .startOn)
      ∧ (stops → did (s.reportRecord z r) { a with state := .stopping } false .stopOff)
      ∧ (¬ starts → ¬ stops → a.owed = true → a.state = .off ∨ a.state = .rest ∨ a.state = .shut →
          did (s.reportRecord z r) { a with owed := false } false .off)
      ∧ (¬ starts → ¬ stops → a.owed = false → s.reportRecord z r = s)
      ∧ (s.actOutcome z r .staleOn true .delivered = s.placeTx (sent false .off))
      ∧ (∀ p o, s.actOutcome z r p false o = s) := by
  intro sent did decides wants starts stops
  have report := State.reportRecord_of record
  refine ⟨fun start => ?_, fun stop => ?_, fun quiet still owed waits => ?_, fun quiet still settled => ?_, ?_, fun p o => rfl⟩
  · rw [report, if_pos start, State.startUnit_attached record attached room]
    exact State.placedFor_setActuator s z r _ _
  · have other : ¬ starts := fun start => absurd (start.2.1.symm.trans stop.2.1) (by decide)
    rw [report, if_neg other, if_pos stop, State.stopUnit_attached record attached room]
    exact State.placedFor_setActuator s z r _ _
  · rw [report, if_neg quiet, if_neg still, if_pos ⟨owed, waits⟩,
      State.queueOff_attached (s := s.setActuator z r { a with owed := false }) (State.actuator_setActuator_same s z r _) attached room]
    exact State.placedFor_setActuator s z r _ _
  · rw [report, if_neg quiet, if_neg still, if_neg fun owed => by simp [settled] at owed]
  · refine (show s.actOutcome z r .staleOn true .delivered = s.actDelivered z r .staleOn from rfl).trans ?_
    unfold State.actDelivered
    rw [record]
    exact State.queueOff_attached record attached room a.state

/-! ## Outcomes and rests (R84 to R86, R88, R91) -/

section

variable {s : State} {z : Nat} {r : Role} {a : Actuator} {g : ClimateGroup}

theorem State.enterRest_of (record : s.actuator z r = some a) (group : s.climateGroup z = some g) : s.enterRest z r
    = (let u := s.setActuator z r { a with state := .rest, run := .stopped, rest := some (100 * g.minRest) }
      if g.minRest = 0 then u.restOver z r else u) := by
  unfold State.enterRest
  rw [record, group]
  rfl

/-- A full rest (R85, R86). -/
theorem State.enterRest_rests (record : s.actuator z r = some a) (group : s.climateGroup z = some g) (some_ : 0 < g.minRest) :
    s.enterRest z r = s.setActuator z r { a with state := .rest, run := .stopped, rest := some (100 * g.minRest) } :=
  (State.enterRest_of record group).trans (if_neg (Nat.ne_of_gt some_))

/-- A minimum rest of 0 ends at once (R86). -/
theorem State.enterRest_ends (record : s.actuator z r = some a) (group : s.climateGroup z = some g) (none_ : g.minRest = 0)
    (still : s.plantDecides z = false ∨ s.demandPresent z r = false) :
    s.enterRest z r = s.setActuator z r { a with state := .off, run := .stopped, rest := none } := by
  refine ((State.enterRest_of record group).trans (if_pos none_)).trans ?_
  rw [State.restOver_of (State.actuator_setActuator_same s z r _), if_neg, State.setActuator_setActuator]
  rintro ⟨decides, present⟩
  rcases still with still | still
  · exact Bool.false_ne_true (still.symm.trans decides)
  · exact Bool.false_ne_true (still.symm.trans present)

theorem State.actDelivered_started (record : s.actuator z r = some a) (group : s.climateGroup z = some g) :
    s.actOutcome z r .startOn true .delivered
      = (let u := s.setActuator z r { a with state := .running, run := .running (100 * g.minRun) }
        if g.minRun = 0 then u.runElapsed z r else u) := by
  refine (show s.actOutcome z r .startOn true .delivered = s.actDelivered z r .startOn from rfl).trans ?_
  unfold State.actDelivered
  rw [record, group]
  rfl

theorem State.actDelivered_stopped (record : s.actuator z r = some a) :
    s.actOutcome z r .stopOff true .delivered = s.enterRest z r := by
  refine (show s.actOutcome z r .stopOff true .delivered = s.actDelivered z r .stopOff from rfl).trans ?_
  unfold State.actDelivered
  rw [record]

/-- A minimum run of 0 ends at once (R84). -/
theorem State.actDelivered_elapsed (record : s.actuator z r = some a) (group : s.climateGroup z = some g)
    (none_ : g.minRun = 0) (still : s.plantDecides z = false ∨ s.demandPresent z r = true) :
    s.actOutcome z r .startOn true .delivered = s.setActuator z r { a with state := .running, run := .elapsed } := by
  refine ((State.actDelivered_started record group).trans (if_pos none_)).trans ?_
  rw [State.runElapsed_of (State.actuator_setActuator_same s z r _), if_neg, State.setActuator_setActuator]
  rintro ⟨-, decides, gone⟩
  rcases still with still | still
  · exact Bool.false_ne_true (still.symm.trans decides)
  · exact Bool.false_ne_true (gone.symm.trans still)

theorem State.actDropped_of (record : s.actuator z r = some a) (p : ActPurpose) : s.actOutcome z r p true .dropped = (match p with
    | .startOn => s.setActuator z r { a with state := .off }
    | .stopOff => s.setActuator z r { a with state := .running, run := .elapsed }
    | .off => s.setActuator z r { a with owed := true }
    | .staleOn => s) := by
  refine (show s.actOutcome z r p true .dropped = s.actDropped z r p true from rfl).trans ?_
  unfold State.actDropped
  rw [record] <;> cases p <;> rfl

theorem State.actFailed_of (record : s.actuator z r = some a) {p : ActPurpose} (moves : p ≠ .staleOn) (why : ActReason) :
    s.actFailed z r p why = s.failActuator z r a.state (p = .startOn) why := by
  unfold State.actFailed
  rw [record]
  cases p with
  | startOn => rfl
  | stopOff => rfl
  | off => rfl
  | staleOn => exact absurd rfl moves

theorem State.actFailed_stale (record : s.actuator z r = some a) (why : ActReason) : s.actFailed z r .staleOn why = s := by
  unfold State.actFailed
  rw [record]

theorem State.returnRecord_of (record : s.actuator z r = some a) :
    s.returnRecord z r = if a.state = .shut then s.enterRest z r else s := by
  unfold State.returnRecord
  rw [record]

end

/-- The outcomes of a unit's telegrams, and the return to NORMAL (R84 to R86, R88, R90, R91). -/
theorem plantOutcomes (s : State) (z : Nat) (r : Role) (a : Actuator) (g : ClimateGroup) (record : s.actuator z r = some a)
    (group : s.climateGroup z = some g) :
    (0 < g.minRun → s.actOutcome z r .startOn true .delivered
        = s.setActuator z r { a with state := .running, run := .running (100 * g.minRun) })
      ∧ (0 < g.minRest → s.actOutcome z r .stopOff true .delivered
          = s.setActuator z r { a with state := .rest, run := .stopped, rest := some (100 * g.minRest) })
      ∧ (g.minRun = 0 → (s.plantDecides z = false ∨ s.demandPresent z r = true) →
          (s.actOutcome z r .startOn true .delivered).actuator z r = some { a with state := .running, run := .elapsed }
            ∧ (s.actOutcome z r .startOn true .delivered).lif = s.lif)
      ∧ (g.minRest = 0 → (s.plantDecides z = false ∨ s.demandPresent z r = false) →
          (s.actOutcome z r .stopOff true .delivered).actuator z r
              = some { a with state := .off, run := .stopped, rest := none }
            ∧ (s.actOutcome z r .stopOff true .delivered).lif = s.lif)
      ∧ s.actOutcome z r .off true .delivered = s.setActuator z r { a with owed := false }
      ∧ s.actOutcome z r .startOn true .dropped = s.setActuator z r { a with state := .off }
      ∧ s.actOutcome z r .stopOff true .dropped = s.setActuator z r { a with state := .running, run := .elapsed }
      ∧ s.actOutcome z r .off true .dropped = s.setActuator z r { a with owed := true }
      ∧ (∀ p o, o = .refusedByNode ∨ o = .noAnswer → p ≠ .staleOn → a.state ≠ .failed →
          (s.actOutcome z r p true o).actuator z r
              = some { a with state := .failed, run := .stopped, rest := none, owed := false }
            ∧ (s.actOutcome z r p true o).ti
                = (s.post (.actuatorFailed z r a.node (some a.state) (some (p = .startOn))
                    (if o = .refusedByNode then .refused else .noAnswer))).ti)
      ∧ (∀ o, o = .refusedByNode ∨ o = .noAnswer → s.actOutcome z r .staleOn true o = s)
      ∧ (a.state = .shut → 0 < g.minRest →
          s.returnRecord z r = s.setActuator z r { a with state := .rest, run := .stopped, rest := some (100 * g.minRest) })
      ∧ (a.state ≠ .shut → s.returnRecord z r = s) := by
  have started := State.actDelivered_started record group
  have stopped := State.actDelivered_stopped record
  have dropped := State.actDropped_of record
  refine ⟨fun some => started.trans (if_neg (Nat.ne_of_gt some)),
    fun some => stopped.trans (State.enterRest_rests record group some), fun none still => ?_, fun none still => ?_, ?_,
    dropped .startOn, dropped .stopOff, dropped .off, ?_, ?_, fun shut some => ?_, fun other => ?_⟩
  · rw [State.actDelivered_elapsed record group none still]
    exact ⟨State.actuator_setActuator_same s z r _, rfl⟩
  · rw [stopped, State.enterRest_ends record group none still]
    exact ⟨State.actuator_setActuator_same s z r _, rfl⟩
  · refine (show s.actOutcome z r .off true .delivered = s.actDelivered z r .off from rfl).trans ?_
    unfold State.actDelivered
    rw [record]
  · intro p o failed moves works
    rcases failed with rfl | rfl
    · rw [show s.actOutcome z r p true .refusedByNode = s.actFailed z r p .refused from rfl, State.actFailed_of record moves]
      exact State.failActuator_fails record works _ _ _
    · rw [show s.actOutcome z r p true .noAnswer = s.actFailed z r p .noAnswer from rfl, State.actFailed_of record moves]
      exact State.failActuator_fails record works _ _ _
  · rintro o (rfl | rfl)
    · exact State.actFailed_stale record .refused
    · exact State.actFailed_stale record .noAnswer
  · rw [State.returnRecord_of record, if_pos shut, State.enterRest_rests record group some]
  · rw [State.returnRecord_of record, if_neg other]

/-! ## Shutdown and recovery (R88, R89) -/

/-- What is waiting to be sent, by its destination, kind and payload. -/
def State.waiting (s : State) : List (Nat × Byte × List Byte) := s.lif.txq.map (fun x => (x.dest, x.kind, x.payload))

section

variable {s : State} {z : Nat} {r : Role} {a : Actuator}

theorem State.waiting_placeTx (s : State) (q : TxRequest) :
    (s.placeTx q).waiting = s.waiting ++ [(q.dest, q.kind, q.payload)] := by simp [State.waiting, State.placeTx]

theorem State.waiting_toShut (s : State) (z : Nat) (r : Role) (a : Actuator) : (s.toShut z r a).waiting = s.waiting := by
  unfold State.waiting State.toShut State.orphanActSet State.mapOrigins
  rw [List.map_map]
  rfl

theorem State.length_toShut (s : State) (z : Nat) (r : Role) (a : Actuator) :
    (s.toShut z r a).lif.txq.length = s.lif.txq.length := by
  simpa [State.waiting] using congrArg List.length (State.waiting_toShut s z r a)

theorem State.actuator_toShut (s : State) (z : Nat) (r : Role) (a : Actuator) :
    (s.toShut z r a).actuator z r = some { a with state := .shut, run := .stopped, rest := none } :=
  State.actuator_setActuator_same s z r _

theorem State.attached_toShut (s : State) (z : Nat) (r : Role) (a b : Actuator) :
    (s.toShut z r a).attached b = s.attached b := rfl

/-- A unit shut with an OFF queued (R89). -/
theorem State.shut_and_off (attached : s.attached a = true) (room : s.lif.txq.length < 24) (before : ActState) :
    ((s.toShut z r a).queueOff z r before).actuator z r = some { a with state := .shut, run := .stopped, rest := none }
      ∧ ((s.toShut z r a).queueOff z r before).waiting = s.waiting ++ [(a.node, 0x91#8, [0x00#8])] := by
  have record := State.actuator_toShut s z r a
  rw [State.queueOff_attached record attached (by rw [State.length_toShut]; exact room)]
  refine ⟨record, ?_⟩
  rw [State.waiting_placeTx, State.waiting_toShut]
  rfl

theorem State.shutdownRecord_still (record : s.actuator z r = some a) (still : a.state = .failed ∨ a.state = .shut) :
    s.shutdownRecord z r = s := by
  unfold State.shutdownRecord
  rw [record]
  rcases still with state | state <;> simp only [state]

theorem State.shutdownRecord_quiet (record : s.actuator z r = some a)
    (quiet : a.state = .off ∨ a.state = .stopping ∨ a.state = .rest) : s.shutdownRecord z r = s.toShut z r a := by
  unfold State.shutdownRecord
  rw [record]
  rcases quiet with state | state | state <;> simp only [state]

theorem State.shutdownRecord_busy (record : s.actuator z r = some a) (busy : a.state = .starting ∨ a.state = .running) :
    s.shutdownRecord z r = if s.attached a then (s.toShut z r a).queueOff z r a.state
      else s.failActuator z r a.state false .detached := by
  unfold State.shutdownRecord
  rw [record]
  rcases busy with state | state <;> simp only [state]

theorem State.recoverRecord_of (record : s.actuator z r = some a) (failed : a.state = .failed) (attached : s.attached a = true) :
    s.recoverRecord z r = (if (s.fire z).state.isShutdown then (s.toShut z r a).queueOff z r .shut
      else s.setActuator z r { a with state := .off, run := .stopped, rest := none }).post
        (.actuatorFailed z r a.node none none .cleared) := by
  unfold State.recoverRecord
  rw [record]
  exact if_pos (by simp [failed, attached])

end

/-- A detached unit, the shutdown of a unit and its recovery (R82, R88, R89). -/
theorem plantShutdown (s : State) (z : Nat) (r : Role) (a : Actuator) (record : s.actuator z r = some a)
    (room : s.lif.txq.length < 24) :
    let shut : Actuator := { a with state := .shut, run := .stopped, rest := none }
    let detached (u : State) (before : ActState) (on : Bool) : Prop :=
      u.actuator z r = some { a with state := .failed, run := .stopped, rest := none, owed := false }
        ∧ u.ti = (s.post (.actuatorFailed z r a.node (some before) (some on) .detached)).ti
    (s.attached a = false →
        (a.state = .off → s.plantDecides z = true → s.demandPresent z r = true → detached (s.reportRecord z r) .off true)
          ∧ (a.state = .running → a.run = .elapsed → s.plantDecides z = true → s.demandPresent z r = false →
              detached (s.reportRecord z r) .running false)
          ∧ (a.state = .starting ∨ a.state = .running → detached (s.shutdownRecord z r) a.state false))
      ∧ (a.state = .failed ∨ a.state = .shut → s.shutdownRecord z r = s)
      ∧ (a.state = .off ∨ a.state = .stopping ∨ a.state = .rest → (s.shutdownRecord z r).actuator z r = some shut
          ∧ (s.shutdownRecord z r).lif.txq.length = s.lif.txq.length)
      ∧ (a.state = .starting ∨ a.state = .running → s.attached a = true →
          (s.shutdownRecord z r).actuator z r = some shut
            ∧ (s.shutdownRecord z r).waiting = s.waiting ++ [(a.node, 0x91#8, [0x00#8])])
      ∧ (a.state = .failed → s.attached a = true →
          ((s.fire z).state.isShutdown = false →
              s.recoverRecord z r = (s.setActuator z r { a with state := .off, run := .stopped, rest := none }).post
                (.actuatorFailed z r a.node none none .cleared))
            ∧ ((s.fire z).state.isShutdown = true → (s.recoverRecord z r).actuator z r = some shut
              ∧ (s.recoverRecord z r).waiting = s.waiting ++ [(a.node, 0x91#8, [0x00#8])])) := by
  intro shut detached
  refine ⟨fun alone => ⟨fun state decides present => ?_, fun state elapsed decides gone => ?_, fun busy => ?_⟩,
    State.shutdownRecord_still record, fun quiet => ?_, fun busy attached => ?_,
    fun failed attached => ⟨fun calm => ?_, fun burning => ?_⟩⟩
  · rw [State.reportRecord_of record, if_pos ⟨decides, state, present⟩, State.startUnit_detached record alone]
    exact State.failActuator_fails record (by simp [state]) _ _ _
  · rw [State.reportRecord_of record, if_neg (by simp [state]), if_pos ⟨decides, state, elapsed, by simp [gone]⟩,
      State.stopUnit_detached record alone]
    exact State.failActuator_fails record (by simp [state]) _ _ _
  · rw [State.shutdownRecord_busy record busy, if_neg (by simp [alone])]
    exact State.failActuator_fails record (by rcases busy with state | state <;> simp [state]) _ _ _
  · rw [State.shutdownRecord_quiet record quiet]
    exact ⟨State.actuator_toShut s z r a, State.length_toShut s z r a⟩
  · rw [State.shutdownRecord_busy record busy, if_pos attached]
    exact State.shut_and_off attached room _
  · rw [State.recoverRecord_of record failed attached, if_neg (by simp [calm])]
  · rw [State.recoverRecord_of record failed attached, if_pos burning]
    exact State.shut_and_off attached room .shut

/-- Settles O27: the timers, the reports, the outcomes, and the shutdown with its recovery. -/
theorem plantTimersFollowTheDemand : Obligations.PlantTimersFollowTheDemand :=
  ⟨plantTimers, plantReports, plantOutcomes, plantShutdown⟩

end Sys2Proof.Machine
end

section
/-! PROOFS. CLEAR_TABLE: what a clear removes and what refuses it. -/

namespace Sys2Proof.Machine

variable {s : State} {d : Directive} {b : Byte}

/-! ### Tables emptied by their keys -/

theorem Table.del_eq_filter {α : Type} (t : Table α) (k : Nat) : Table.del t k = t.filter (fun p => p.1 ≠ k) := by
  induction t with
  | nil => rfl
  | cons p t ih =>
    obtain ⟨i, x⟩ := p
    by_cases same : i = k <;> simp [Table.del, same, ih]

/-- Removing a table's keys one after the other leaves it empty. -/
theorem emptied_by_keys {α : Type} {g : State → Table α} {f : State → Nat → State}
    (each : ∀ s k, g (f s k) = Table.del (g s) k) (l : List Nat) {s : State} (keys : ∀ p ∈ g s, p.1 ∈ l) :
    g (l.foldl f s) = [] := by
  induction l generalizing s with
  | nil =>
    cases t : g s with
    | nil => exact t
    | cons p _ => exact absurd (keys p (by simp [t])) (by simp)
  | cons k l ih =>
    refine ih fun p listed => ?_
    rw [each, Table.del_eq_filter] at listed
    have ⟨old, other⟩ := List.mem_filter.1 listed
    exact (List.mem_cons.1 (keys p old)).resolve_left (by simpa using other)

/-! ### One removal -/

@[simp] theorem State.recountFor_frame (s : State) (e : Option NodeEntry) :
    (s.recountFor e).zt = s.zt ∧ (s.recountFor e).cu = s.cu ∧ (s.recountFor e).cs = s.cs := by
  cases e with
  | none => exact ⟨rfl, rfl, rfl⟩
  | some e =>
    unfold State.recountFor
    dsimp only
    split <;> simp

theorem State.reloadLock_cu_cs (s : State) (a : Nat) (old new : Option NodeEntry) :
    (s.reloadLock a old new).cu = s.cu ∧ (s.reloadLock a old new).cs = s.cs := by
  unfold State.reloadLock
  split <;> simp

theorem Nt.recountFor_nodes (n : Nt) (e : Option NodeEntry) : (n.recountFor e).nodes = n.nodes := by
  cases e with
  | none => rfl
  | some e =>
    simp only [Nt.recountFor]
    split <;> rfl

/-- A node entry that is placed or removed changes the table at its address alone, whatever else follows. -/
theorem State.applyNode_nodes (s : State) (a : Nat) (new : Option NodeEntry) :
    (s.applyNode a new).nt.nodes = Table.set s.nt.nodes a new := by
  unfold State.applyNode State.recountDown
  simp only [State.evalFault_frame, State.reloadLock_frame, State.recountFor_nt, Nt.recountFor_nodes]
  split
  · split <;> simp
  · rfl

theorem State.applyNode_frame (s : State) (a : Nat) (new : Option NodeEntry) :
    (s.applyNode a new).zt = s.zt ∧ (s.applyNode a new).cu = s.cu ∧ (s.applyNode a new).cs = s.cs := by
  unfold State.applyNode
  simp only [State.recountDown_frame, State.reloadLock_frame, State.reloadLock_cu_cs, State.recountFor_frame]
  split
  · split <;> simp
  · exact ⟨rfl, rfl, rfl⟩

theorem State.applyZone_frame (s : State) (z : Nat) (new : Option ZoneEntry) :
    (s.applyZone z new).zt = { s.zt with zones := Table.set s.zt.zones z new } ∧ (s.applyZone z new).nt = s.nt
      ∧ (s.applyZone z new).cs = s.cs := by
  unfold State.applyZone
  dsimp only
  refine ⟨?_, ?_, ?_⟩ <;> (repeat' split) <;> simp

/-! ### The clears -/

theorem State.clearTable_node (s : State) :
    (s.clearTable .node).nt.nodes = [] ∧ (s.clearTable .node).zt = s.zt ∧ (s.clearTable .node).cu = s.cu
      ∧ (s.clearTable .node).cs = s.cs :=
  ⟨emptied_by_keys (g := fun u => u.nt.nodes) (fun u a => u.applyNode_nodes a none) _ fun _ listed => List.mem_map_of_mem listed,
    foldl_keeps State.zt _ (fun u a => (u.applyNode_frame a none).1) _ _,
    foldl_keeps State.cu _ (fun u a => (u.applyNode_frame a none).2.1) _ _,
    foldl_keeps State.cs _ (fun u a => (u.applyNode_frame a none).2.2) _ _⟩

theorem State.clearTable_zone (s : State) :
    (s.clearTable .zone).zt = { s.zt with zones := [] } ∧ (s.clearTable .zone).nt = s.nt
      ∧ (s.clearTable .zone).cs = s.cs := by
  have emptied : (s.clearTable .zone).zt.zones = [] :=
    emptied_by_keys (g := fun u => u.zt.zones) (fun u z => congrArg Zt.zones (u.applyZone_frame z none).1) _
      fun _ listed => List.mem_map_of_mem listed
  have site : (s.clearTable .zone).zt.site = s.zt.site :=
    foldl_keeps (fun u : State => u.zt.site) _ (fun u z => (congrArg Zt.site (u.applyZone_frame z none).1 :)) _ _
  refine ⟨?_, foldl_keeps State.nt _ (fun u z => (u.applyZone_frame z none).2.1) _ _,
    foldl_keeps State.cs _ (fun u z => (u.applyZone_frame z none).2.2) _ _⟩
  exact congrArg₂ (fun zones site => { zones := zones, site := site : Zt }) emptied site

theorem State.clearTable_line (s : State) :
    (s.clearTable .line).lu.lines = [] ∧ s.clearTable .line = { s with lu := (s.clearTable .line).lu }
      ∧ (s.clearTable .line).lu.release = s.lu.release ∧ (s.clearTable .line).lu.fault = s.lu.fault
      ∧ (s.clearTable .line).lu.raw = s.lu.raw :=
  ⟨emptied_by_keys (g := fun u => u.lu.lines) (fun _ _ => rfl) _ fun _ listed => List.mem_map_of_mem listed,
    foldl_kept (f := fun u n => u.applyLine n none)
      (P := fun u => u = { s with lu := u.lu } ∧ u.lu.release = s.lu.release ∧ u.lu.fault = s.lu.fault
        ∧ u.lu.raw = s.lu.raw)
      (fun u n kept => ⟨(congrArg (fun v : State => { v with lu := (u.applyLine n none).lu }) kept.1 :), kept.2⟩) _
      ⟨rfl, rfl, rfl, rfl⟩⟩

theorem State.clearTable_party (s : State) : s.clearTable .party = { s with pt := { s.pt with parties := [] } } := by
  have emptied : (s.clearTable .party).pt.parties = [] :=
    emptied_by_keys (g := fun u => u.pt.parties) (fun _ _ => rfl) _ fun _ listed => List.mem_map_of_mem listed
  have others : s.clearTable .party = { s with pt := { s.pt with parties := (s.clearTable .party).pt.parties } } :=
    foldl_kept (f := fun u k => u.applyParty k none) (P := fun u => u = { s with pt := { s.pt with parties := u.pt.parties } })
      (fun u k kept => (congrArg (fun v : State => { v with pt := (u.applyParty k none).pt }) kept :)) _ rfl
  exact others.trans (congrArg (fun l => { s with pt := { s.pt with parties := l } }) emptied)

theorem State.clearTable_site (s : State) :
    s.clearTable .site = { s with zt := { s.zt with site := none }, lu := { s.lu with fault := true } } := by
  simp [State.clearTable, State.applySite, State.evalFault, State.faultCondition]

/-! ### What refuses a clear -/

open Classical in
theorem State.judgeClear_node (s : State) :
    s.judgeClear .node
      = if (∃ p ∈ s.la.locks, p.2.claims.any = true)
          ∨ ∃ h, (s.engine h).state ≠ .idle
            ∧ ((s.terminal .hatchReader h).isSome = true ∨ (s.terminal .courierTerminal h).isSome = true) then some .inUse
        else if ∃ p ∈ s.nt.nodes, p.2.fireRelevant = true ∧ s.quietZone p.2.zone = false then some .zoneActive
        else none := by
  have busy : (∃ h, (s.engine h).state ≠ .idle
      ∧ ((s.terminal .hatchReader h).isSome = true ∨ (s.terminal .courierTerminal h).isSome = true))
      ↔ s.busyTerminal .h0 = true ∨ s.busyTerminal .h1 = true := by
    constructor
    · rintro ⟨h, engaged⟩
      cases h
      · exact .inl (by simpa [State.busyTerminal, State.engineBusy] using engaged)
      · exact .inr (by simpa [State.busyTerminal, State.engineBusy] using engaged)
    · rintro (engaged | engaged)
      · exact ⟨.h0, by simpa [State.busyTerminal, State.engineBusy] using engaged⟩
      · exact ⟨.h1, by simpa [State.busyTerminal, State.engineBusy] using engaged⟩
  simp only [State.judgeClear, judge_cons, judge_nil, busy, Bool.or_eq_true, List.any_eq_true, Bool.and_eq_true,
    Bool.not_eq_true', or_assoc]

open Classical in
theorem State.judgeClear_zone (s : State) :
    s.judgeClear .zone
      = if s.cat.cartridges ≠ [] ∨ (s.engine .h0).state ≠ .idle ∨ (s.engine .h1).state ≠ .idle then some .inUse
        else if ∃ z < 16, s.quietZone z = false then some .zoneActive else none := by
  simp only [State.judgeClear, judge_cons, judge_nil, State.anyEngineBusy, State.engineBusy, State.anyActiveZone,
    Bool.or_eq_true, List.any_eq_true, Bool.not_eq_true', decide_eq_true_eq, zoneNumbers, List.mem_range,
    List.isEmpty_eq_false_iff]
  congr

open Classical in
theorem State.judgeClear_line (s : State) :
    s.judgeClear .line
      = if ∃ p ∈ s.lu.lines, p.2.function ≠ .unused ∧ s.quietZone p.2.zone = false then some .zoneActive else none := by
  simp only [State.judgeClear, judge_cons, judge_nil, List.any_eq_true, Bool.and_eq_true, Bool.not_eq_true',
    decide_eq_true_eq]

open Classical in
theorem State.judgeClear_party (s : State) :
    s.judgeClear .party
      = if (∃ p ∈ s.pt.parties, p.2.courier.isSome = true ∧ 0 < s.courierSum p.2.id)
          ∨ (s.engine .h0).state ≠ .idle ∨ (s.engine .h1).state ≠ .idle then some .inUse else none := by
  simp only [State.judgeClear, judge_cons, judge_nil, State.anyEngineBusy, State.engineBusy, Bool.or_eq_true,
    List.any_eq_true, Bool.and_eq_true, decide_eq_true_eq]

/-! ### The directive -/

/-- A CLEAR_TABLE whose complement matches, of a known table. -/
theorem exec_clearTable_decides {t : TableId} (hand : s.hasTakenVerified d) (body : d.body = [0x12#8, b, ~~~b])
    (table : tableOf b = some t) : exec .clearTable s = .next (s.taken.decideClear d b t).takeNext := by
  refine congrArg Host.Outcome.next ((State.takeDirective_coded_verified hand body (by decide) _ _).trans ?_)
  simp only [body, table, if_true]

theorem State.decideClear_eq {t : TableId} (latch : s.ti.latch = false) (protect : s.ti.protect.of t = false) :
    s.decideClear d b t
      = if t = .catalogue then { s with ti := { s.ti with inHand := some (.catalogueClear d) } }
        else match s.judgeClear t with
          | some r => s.refuseClear d b r
          | none => (s.clearTable t).reply d .ok .empty := by
  unfold State.decideClear
  simp only [judge_cons, judge_nil, latch, protect, Bool.false_eq_true, if_false] <;> rfl

theorem exec_clearTable_refused {t : TableId} {r : Result} (hand : s.hasTakenVerified d) (body : d.body = [0x12#8, b, ~~~b])
    (latch : s.ti.latch = false) (table : tableOf b = some t) (other : t ≠ .catalogue) (protect : s.ti.protect.of t = false)
    (refuses : s.judgeClear t = some r) : exec .clearTable s = .next (s.taken.refuseClear d b r).takeNext := by
  have same : s.taken.judgeClear t = some r := refuses
  rw [exec_clearTable_decides hand body table, State.decideClear_eq (s := s.taken) latch protect, if_neg other, same]

theorem exec_clearTable_clears {t : TableId} (hand : s.hasTakenVerified d) (body : d.body = [0x12#8, b, ~~~b])
    (latch : s.ti.latch = false) (table : tableOf b = some t) (other : t ≠ .catalogue) (protect : s.ti.protect.of t = false)
    (passes : s.judgeClear t = none) : exec .clearTable s = .next ((s.taken.clearTable t).conclude d .ok .empty) := by
  have same : s.taken.judgeClear t = none := passes
  rw [exec_clearTable_decides hand body table, State.decideClear_eq (s := s.taken) latch protect, if_neg other, same]
  rfl

theorem exec_clearTable_protected {t : TableId} (hand : s.hasTakenVerified d) (body : d.body = [0x12#8, b, ~~~b])
    (latch : s.ti.latch = false) (table : tableOf b = some t) (protect : s.ti.protect.of t = true) :
    exec .clearTable s = .next (s.taken.refuseClear d b .protected_).takeNext := by
  rw [exec_clearTable_decides hand body table, State.decideClear]
  have judged : judge [(s.taken.ti.latch, .latched), (s.taken.ti.protect.of t, .protected_)] = some Result.protected_ := by
    simp only [judge_cons]
    rw [if_neg (by exact ne_true_of_eq_false latch), if_pos (by exact protect)]
  rw [judged]

theorem exec_clearTable_catalogue (hand : s.hasTakenVerified d) (body : d.body = [0x12#8, b, ~~~b])
    (latch : s.ti.latch = false) (table : tableOf b = some .catalogue) (protect : s.ti.protect.catalogue = false) :
    exec .clearTable s = .next { s.taken with ti := { s.taken.ti with inHand := some (.catalogueClear d) } } := by
  rw [exec_clearTable_decides hand body table, State.decideClear_eq (s := s.taken) (t := .catalogue) latch protect, if_pos rfl,
    State.takeNext_busy (by simp)]

theorem exec_clearTable_complement {c : Byte} (hand : s.hasTakenVerified d) (body : d.body = [0x12#8, b, c])
    (wrong : c ≠ ~~~b) {t : TableId} (table : tableOf b = some t) :
    exec .clearTable s = .next (s.taken.refuseClear d b .badForm).takeNext := by
  refine congrArg Host.Outcome.next ((State.takeDirective_coded_verified hand body (by decide) _ _).trans ?_)
  simp only [body, table, if_neg wrong]

theorem State.refuseClear_latch (latch : s.ti.latch = false) (r : Result) :
    (s.refuseClear d b r).ti.latch = if r = .latched then s.ti.latch else true := by
  have kept : (s.refuseClear d b r).ti.latch = (s.latchError d b none r).ti.latch := rfl
  rw [kept, State.latchError, latch]
  simp only [Bool.false_eq_true, or_false]
  split
  · exact latch
  · rfl

/-- Settles O58: each table's clear is the fold of its removals over its own keys, so nothing of it is left, and what refuses
it is judged on the state in which the directive was taken. -/
theorem clearTableEmptiesTheTable : Obligations.ClearTableEmptiesTheTable := by
  intro s d b t hand latch table s1 inMove claimed terminalBusy inFire refused
  refine ⟨?_, ?_, ?_, ?_, ?_, ?_, ?_, ?_, State.refuseClear_latch latch⟩
  case refine_1 =>
    rintro body rfl open_
    rw [exec_clearTable_clears hand body latch table (by decide) open_ rfl, State.clearTable_site]
    rfl
  case refine_2 =>
    rintro body rfl open_
    exact exec_clearTable_catalogue hand body latch table open_
  case refine_3 =>
    rintro body rfl open_
    have refuses : ∀ {r}, s.judgeClear .node = some r → refused r :=
      exec_clearTable_refused hand body latch table (by decide) open_
    refine ⟨fun used => refuses ((s.judgeClear_node).trans (if_pos used)),
      fun unclaimed idle active => refuses ((s.judgeClear_node).trans
        ((if_neg (not_or.2 ⟨unclaimed, idle⟩)).trans (if_pos active))),
      fun unclaimed idle quiet => ?_⟩
    have passes : s.judgeClear .node = none := by
      rw [s.judgeClear_node, if_neg (not_or.2 ⟨unclaimed, idle⟩), if_neg]
      rintro ⟨p, listed, relevant, active⟩
      exact quiet p listed relevant active
    exact ⟨_, exec_clearTable_clears hand body latch table (by decide) open_ passes, s.taken.clearTable_node⟩
  case refine_4 =>
    rintro body rfl open_
    have refuses : ∀ {r}, s.judgeClear .zone = some r → refused r :=
      exec_clearTable_refused hand body latch table (by decide) open_
    refine ⟨fun used => refuses ((s.judgeClear_zone).trans (if_pos used)),
      fun empty idle active => refuses ((s.judgeClear_zone).trans
        ((if_neg (not_or.2 ⟨not_not.2 empty, idle⟩)).trans (if_pos active))),
      fun empty idle quiet => ?_⟩
    have passes : s.judgeClear .zone = none := by
      rw [s.judgeClear_zone, if_neg (not_or.2 ⟨not_not.2 empty, idle⟩), if_neg]
      rintro ⟨z, small, active⟩
      exact quiet z small active
    exact ⟨_, exec_clearTable_clears hand body latch table (by decide) open_ passes, s.taken.clearTable_zone⟩
  case refine_5 =>
    rintro body rfl open_
    refine ⟨fun active => exec_clearTable_refused hand body latch table (by decide) open_
      ((s.judgeClear_line).trans (if_pos active)), fun quiet => ?_⟩
    have passes : s.judgeClear .line = none := by
      rw [s.judgeClear_line, if_neg]
      rintro ⟨p, listed, used, active⟩
      exact quiet p listed used active
    exact ⟨_, exec_clearTable_clears hand body latch table (by decide) open_ passes, s.taken.clearTable_line⟩
  case refine_6 =>
    rintro body rfl open_
    refine ⟨fun used => exec_clearTable_refused hand body latch table (by decide) open_
      ((s.judgeClear_party).trans (if_pos used)), fun none idle => ?_⟩
    have passes : s.judgeClear .party = Option.none := by
      rw [s.judgeClear_party, if_neg]
      rintro (⟨p, listed, courier, sum⟩ | moving)
      · exact absurd (none p listed courier) (Nat.pos_iff_ne_zero.1 sum)
      · exact idle moving
    rw [exec_clearTable_clears hand body latch table (by decide) open_ passes, State.clearTable_party]
  case refine_7 => exact fun body protect => exec_clearTable_protected hand body latch table protect
  case refine_8 => exact fun c body wrong => exec_clearTable_complement hand body wrong table

end Sys2Proof.Machine
end

section
/-! PROOFS. The work that CAT does for TI: a catalogue clear or load, and the places that a load keeps distinct. -/

namespace Sys2Proof.Machine

variable {s t u : State} {d : Directive}

/-! ### A place emptied -/

/-- The record at a place is AWAY with the courier of an id. -/
def State.awayWith (s : State) (id i : Nat) : Bool :=
  meets (s.cartridge i) (fun c => c.state = .away && c.courier = some id)

theorem State.emptyPlace_cases (s : State) (i : Nat) :
    ∃ v, s.emptyPlace i = { v with cat := { v.cat with cartridges := Table.del v.cat.cartridges i } }
      ∧ ((v = s ∧ ∀ id, s.awayWith id i = false)
        ∨ ∃ courier, v = s.lowerHeldOf courier ∧ ∀ id, s.awayWith id i = decide (courier = some id)) := by
  cases record : s.cartridge i with
  | none => exact ⟨s, by simp [State.emptyPlace, record], .inl ⟨rfl, fun id => by simp [State.awayWith, record, meets]⟩⟩
  | some c =>
    by_cases away : c.state = .away
    · exact ⟨_, by simp only [State.emptyPlace, record, if_pos away], .inr ⟨c.courier, rfl, fun id => by
        simp [State.awayWith, record, away, meets]⟩⟩
    · exact ⟨s, by simp [State.emptyPlace, record, away], .inl ⟨rfl, fun id => by
        simp [State.awayWith, record, away, meets]⟩⟩

theorem State.lowerHeldOf_eq (s : State) (courier : Option Nat) : s.lowerHeldOf courier = { s with pt := (s.lowerHeldOf courier).pt } := by
  cases courier with
  | none => rfl
  | some id =>
    unfold State.lowerHeldOf State.lowerHeld State.changeHeld
    (repeat' split) <;> rfl

theorem State.emptyPlace_cartridges (s : State) (i : Nat) :
    (s.emptyPlace i).cat.cartridges = Table.del s.cat.cartridges i := by
  obtain ⟨v, eq, (⟨rfl, -⟩ | ⟨courier, rfl, -⟩)⟩ := s.emptyPlace_cases i
  · rw [eq]
  · rw [eq, s.lowerHeldOf_eq courier]

theorem State.emptyPlace_eq (s : State) (i : Nat) :
    s.emptyPlace i = { s with cat := (s.emptyPlace i).cat, pt := (s.emptyPlace i).pt } := by
  obtain ⟨v, eq, (⟨rfl, -⟩ | ⟨courier, rfl, -⟩)⟩ := s.emptyPlace_cases i
  · rw [eq]
  · rw [eq, s.lowerHeldOf_eq courier]

theorem State.emptyPlace_wf (w : Table.wf s.pt.parties = true) (i : Nat) : Table.wf (s.emptyPlace i).pt.parties = true := by
  obtain ⟨v, eq, (⟨rfl, -⟩ | ⟨courier, rfl, -⟩)⟩ := s.emptyPlace_cases i
  · rw [eq]
    exact w
  · rw [eq]
    exact State.lowerHeldOf_wf w courier

theorem State.heldCount_emptyPlace (w : Table.wf s.pt.parties = true) (i id : Nat) :
    (s.emptyPlace i).heldCount id = s.heldCount id - if s.awayWith id i then 1 else 0 := by
  obtain ⟨v, eq, (⟨rfl, away⟩ | ⟨courier, rfl, away⟩)⟩ := s.emptyPlace_cases i
  · rw [eq, away id]
    rfl
  · rw [eq, away id]
    exact (State.heldCount_lowerHeldOf w courier id).trans (by simp)

theorem State.cartridge_emptyPlace_other (s : State) {i j : Nat} (other : j ≠ i) :
    (s.emptyPlace i).cartridge j = s.cartridge j := by
  rw [State.cartridge, s.emptyPlace_cartridges i]
  exact Table.get_del_other _ other

theorem State.cartridge_emptyPlace_same (s : State) (i : Nat) : (s.emptyPlace i).cartridge i = none := by
  rw [State.cartridge, s.emptyPlace_cartridges i]
  exact Table.get_del_same _ _

/-- Each courier holds one fewer for each emptied place whose record was AWAY with it. -/
theorem State.heldCount_foldl_emptyPlace {l : List Nat} (distinct : l.Nodup) {s : State}
    (w : Table.wf s.pt.parties = true) (id : Nat) :
    (l.foldl State.emptyPlace s).heldCount id = s.heldCount id - (l.filter (s.awayWith id)).length := by
  induction l generalizing s with
  | nil => rfl
  | cons i l ih =>
    obtain ⟨notLater, distinct⟩ := List.nodup_cons.1 distinct
    have later : l.filter ((s.emptyPlace i).awayWith id) = l.filter (s.awayWith id) := by
      refine List.filter_congr fun j hj => ?_
      rw [State.awayWith, s.cartridge_emptyPlace_other (by rintro rfl; exact notLater hj), State.awayWith]
    rw [List.foldl_cons, ih distinct (State.emptyPlace_wf w i), later, State.heldCount_emptyPlace w, Nat.sub_sub,
      List.filter_cons]
    congr 1
    split <;> simp_all [Nat.add_comm]

/-! ### The clear -/

theorem State.clearTable_catalogue (s : State) :
    (s.clearTable .catalogue).cat.cartridges = []
      ∧ s.clearTable .catalogue = { s with cat := (s.clearTable .catalogue).cat, pt := (s.clearTable .catalogue).pt } :=
  ⟨emptied_by_keys (g := fun u => u.cat.cartridges) (fun u i => u.emptyPlace_cartridges i) _
      fun _ listed => List.mem_map_of_mem listed,
    foldl_kept (f := State.emptyPlace) (P := fun u => u = { s with cat := u.cat, pt := u.pt })
      (fun u i kept => (u.emptyPlace_eq i).trans
        (congrArg (fun v : State => { v with cat := (u.emptyPlace i).cat, pt := (u.emptyPlace i).pt }) kept :)) _ rfl⟩

theorem State.heldCount_clearTable (w : Table.wf s.cat.cartridges = true) (parties : Table.wf s.pt.parties = true) (id : Nat) :
    (s.clearTable .catalogue).heldCount id
      = s.heldCount id - (s.cat.cartridges.filter (fun p => p.2.state = .away ∧ p.2.courier = some id)).length := by
  refine (State.heldCount_foldl_emptyPlace (Table.keys_nodup w) parties id).trans ?_
  rw [List.filter_map, List.length_map]
  congr 2
  refine List.filter_congr fun p listed => ?_
  have record : s.cartridge p.1 = some p.2 := Table.get_of_mem w listed
  simp [State.awayWith, record, meets]

theorem State.judgeClear_catalogue (s : State) :
    s.judgeClear .catalogue = if s.cat.cartridges.any (fun p => p.2.inMotion) = true then some .inUse else none := by
  simp only [State.judgeClear, judge_cons, judge_nil]

/-! ### The completion -/

theorem exec_catalogueCompletion_clear (hand : s.ti.inHand = some (.catalogueClear d)) :
    exec .catalogueCompletion s
      = .next (if s.cat.cartridges.any (fun p => p.2.inMotion) = true
          then s.dropHand.refuseClear d (d.body.getD 1 0x05#8) .inUse
          else (s.dropHand.clearTable .catalogue).reply d .ok .empty).workPendingEpochs.takeNext := by
  have judged : s.dropHand.judgeClear .catalogue
      = if s.cat.cartridges.any (fun p => p.2.inMotion) = true then some .inUse else none := s.dropHand.judgeClear_catalogue
  refine congrArg Host.Outcome.next ?_
  cases moving : s.cat.cartridges.any (fun p => p.2.inMotion) <;>
    simp only [hand, judged, moving, if_true, Bool.false_eq_true, if_false]

theorem exec_catalogueCompletion_load {first count : Nat} {entries : List Byte}
    (hand : s.ti.inHand = some (.catalogueLoad d first count entries)) :
    exec .catalogueCompletion s
      = .next (s.dropHand.finishLoad d (d.body.getD 1 0x05#8) count (State.loadEntries .catalogue first 0
          (cutEntries (entrySize .catalogue) count entries) s.dropHand)).workPendingEpochs.takeNext := by
  refine congrArg Host.Outcome.next ?_
  simp only [hand]

theorem State.latchError_first (latch : s.ti.latch = false) {r : Result} (other : r ≠ .latched) (b : Byte) (off : Option Nat) :
    s.latchError d b off r = { s with ti := { s.ti with
      latch := true, lastLoadError := some { directive := bodyCode d.body, table := b, offset := off, code := r } } } := by
  simp [State.latchError, latch, other]

/-! ### Distinct labels and places -/

theorem asked_cases {α : Type} {a : Asked α} {v : Option α → Option Result} {f : Option α → State}
    (done : asked a v f = .ok u) :
    (a = .remove ∧ v none = none ∧ u = f none) ∨ ∃ x, a = .place x ∧ v (some x) = none ∧ u = f (some x) := by
  cases a with
  | outOfRange => cases done
  | remove =>
    cases verdict : v none with
    | none => exact .inl ⟨rfl, rfl, by simpa [asked, verdict] using done.symm⟩
    | some r => simp [asked, verdict] at done
  | place x =>
    cases verdict : v (some x) with
    | none => exact .inr ⟨x, rfl, verdict, by simpa [asked, verdict] using done.symm⟩
    | some r => simp [asked, verdict] at done

/-- Two records have a label or a home place in common. -/
def Cartridge.clashes (c d : Cartridge) : Prop := c.label = d.label ∨ (c.homeZone = d.homeZone ∧ c.homeSlot = d.homeSlot)

theorem Cartridge.clashes_symm {c d : Cartridge} (clash : c.clashes d) : d.clashes c :=
  clash.imp Eq.symm fun ⟨zone, slot⟩ => ⟨zone.symm, slot.symm⟩

/-- No two places of the catalogue hold records with a label or a home place in common (R124). -/
def State.distinctPlaces (s : State) : Prop :=
  ∀ i j c d, s.cartridge i = some c → s.cartridge j = some d → c.clashes d → i = j

theorem Table.anyOther_false {α : Type} {t : Table α} {k : Nat} {p : α → Bool} (none : Table.anyOther t k p = false)
    {j : Nat} {a : α} (there : Table.get t j = some a) (other : j ≠ k) : p a = false := by
  have := (List.any_eq_false.1 none) _ (Table.get_mem there)
  simpa [other] using this

theorem State.distinctPlaces_emptyPlace (h : s.distinctPlaces) (i : Nat) : (s.emptyPlace i).distinctPlaces := by
  have old : ∀ {j c}, (s.emptyPlace i).cartridge j = some c → s.cartridge j = some c := by
    intro j c record
    by_cases here : j = i
    · subst here
      exact absurd (record.symm.trans (s.cartridge_emptyPlace_same j)) (by simp)
    · rwa [s.cartridge_emptyPlace_other here] at record
  exact fun j k c d first second => h j k c d (old first) (old second)

theorem State.judgeCatEntry_other {i : Nat} {e : CatEntry} (passes : s.judgeCatEntry i e = none) {j : Nat} {c : Cartridge}
    (record : s.cartridge j = some c) (other : j ≠ i) : ¬ c.clashes e.fresh := by
  have distinct : Table.anyOther s.cat.cartridges i (fun c => c.label = e.label
      || (c.homeZone = e.homeZone && c.homeSlot = e.homeSlot)) = false := by
    by_contra clash
    have clash := Bool.eq_true_of_not_eq_false clash
    simp only [State.judgeCatEntry, judge_cons, clash, if_true] at passes
    split at passes
    · cases passes
    · split at passes <;> cases passes
  have := Table.anyOther_false distinct record other
  simpa [Cartridge.clashes, CatEntry.fresh] using this

theorem State.applyCatEntry_cartridge (s : State) (i : Nat) (e : CatEntry) (j : Nat) :
    (s.applyCatEntry i e).cartridge j = if j = i then some e.fresh else s.cartridge j := by
  have placed : ((s.emptyPlace i).setCartridge i e.fresh).cartridge j = if j = i then some e.fresh else s.cartridge j := by
    split
    · next here =>
      subst here
      exact Table.get_put_same _ _ _
    · next other => exact (Table.get_put_other _ _ other).trans (s.cartridge_emptyPlace_other other)
  rw [← placed, State.applyCatEntry]
  split
  · simp [State.cartridge]
  · rfl

theorem State.distinctPlaces_applyCatEntry (h : s.distinctPlaces) {i : Nat} {e : CatEntry}
    (passes : s.judgeCatEntry i e = none) : (s.applyCatEntry i e).distinctPlaces := by
  intro j k c d first second clash
  rw [State.applyCatEntry_cartridge] at first second
  split at first <;> split at second
  · next here there => exact here.trans there.symm
  · next here other =>
    cases first
    exact absurd (Cartridge.clashes_symm clash) (State.judgeCatEntry_other passes second other)
  · next other here =>
    cases second
    exact absurd clash (State.judgeCatEntry_other passes first other)
  · exact h j k c d first second clash

theorem State.distinctPlaces_loadEntry (h : s.distinctPlaces) {i : Nat} {e : List Byte}
    (loaded : s.loadEntry .catalogue i e = .ok u) : u.distinctPlaces := by
  unfold State.loadEntry at loaded
  rcases asked_cases loaded with ⟨-, -, rfl⟩ | ⟨x, -, passes, rfl⟩
  · exact State.distinctPlaces_emptyPlace h i
  · exact State.distinctPlaces_applyCatEntry h passes

/-- Settles O37: the clear is the fold of `emptyPlace` over the catalogue's keys, each fall of a held count that of one record
AWAY; a load's entry is checked against every other place before it takes its own. -/
theorem catalogueWorkCompletes : Obligations.CatalogueWorkCompletes := by
  refine ⟨fun s d first count entries => ⟨?_, ?_, ?_, ?_⟩, fun s u index e loaded h => ?_⟩
  · rintro hand ⟨p, listed, moving⟩
    rw [exec_catalogueCompletion_clear hand, if_pos (List.any_eq_true.2 ⟨p, listed, moving⟩)]
    rfl
  · intro hand still
    obtain ⟨empty, frame⟩ := s.dropHand.clearTable_catalogue
    refine ⟨(s.dropHand.clearTable .catalogue).reply d .ok .empty, ?_, empty, ?_, ?_, ?_, fun w parties id => ?_⟩
    · rw [exec_catalogueCompletion_clear hand, if_neg]
      · rfl
      · simpa using still
    · rw [frame]
      rfl
    · rw [frame]
      rfl
    · rw [frame]
      rfl
    · exact State.heldCount_clearTable (s := s.dropHand) w parties id
  · intro s1 hand loaded
    have loaded : State.loadEntries .catalogue first 0 (cutEntries (entrySize .catalogue) count entries) s.dropHand
        = .ok s1 := loaded
    rw [exec_catalogueCompletion_load hand, loaded]
    rfl
  · intro off r hand latch other failed
    have failed : State.loadEntries .catalogue first 0 (cutEntries (entrySize .catalogue) count entries) s.dropHand
        = .error (off, r) := failed
    rw [exec_catalogueCompletion_load hand, failed, State.finishLoad, State.refuseLoad,
      State.latchError_first (s := s.dropHand) latch other]
    rfl
  · exact State.distinctPlaces_loadEntry h loaded

end Sys2Proof.Machine
end

section
/-! PROOFS. LOAD_SEGMENT: its checks in their order, and what an entry that is placed brings with it. -/

namespace Sys2Proof.Machine

variable {s t u : State} {d : Directive} {b : Byte} {f : List Byte}

/-! ### The rows of the directive -/

theorem exec_loadSegment_formed {t : TableId} {g : Segment} (hand : s.hasTakenVerified d) (body : d.body = 0x10#8 :: b :: f)
    (table : tableOf b = some t) (parsed : parseSegment t f = some g) :
    exec .loadSegment s = .next (s.taken.loadSegment d b t g).takeNext := by
  refine congrArg Host.Outcome.next ((State.takeDirective_coded_verified hand body (by decide) _ _).trans ?_)
  simp only [body, table, parsed]

theorem exec_loadSegment_malformed (hand : s.hasTakenVerified d) (body : d.body = 0x10#8 :: b :: f)
    (wrong : tableOf b = none ∨ ∃ t, tableOf b = some t ∧ parseSegment t f = none) :
    exec .loadSegment s = .next (s.taken.refuseLoad d b none .badForm).takeNext := by
  refine congrArg Host.Outcome.next ((State.takeDirective_coded_verified hand body (by decide) _ _).trans ?_)
  rcases wrong with table | ⟨t, table, parsed⟩
  · simp only [body, table]
  · simp only [body, table, parsed]

theorem exec_loadSegment_short (hand : s.hasTakenVerified d) (body : d.body = [0x10#8]) :
    exec .loadSegment s = .next (s.taken.conclude d .badForm .empty) := by
  refine congrArg Host.Outcome.next ((State.takeDirective_coded_verified hand body (by decide) _ _).trans ?_)
  simp only [body, State.conclude]

theorem State.judgeSegment_eq (s : State) (t : TableId) (g : Segment) :
    s.judgeSegment t g
      = if g.count = 0 ∨ 16 < g.count ∨ lastIndex t < g.first + g.count - 1 then some .range
        else if s.ti.latch = true then some .latched
        else if s.ti.protect.of t = true then some .protected_
        else if segmentSum g.entries = g.checksum then none else some .checksum := by
  simp only [State.judgeSegment, judge_cons, judge_nil, Bool.or_eq_true, decide_eq_true_eq, or_assoc, ite_not, ne_eq]

theorem parseSegment_none_iff (t : TableId) (i0 i1 c : Byte) (f : List Byte) :
    parseSegment t (i0 :: i1 :: c :: f) = none ↔ f.length ≠ c.toNat * entrySize t + 2 := by
  unfold parseSegment
  dsimp only
  split
  · next same => simp [same]
  · next other => simp [other]

theorem State.refuseLoad_latched (latch : s.ti.latch = true) (off : Option Nat) (r : Result) :
    s.refuseLoad d b off r = s.reply d r (.loadRefused b off) := by
  rw [State.refuseLoad, State.latchError, if_pos (.inr latch)]

theorem State.refuseLoad_first (latch : s.ti.latch = false) {r : Result} (other : r ≠ .latched) (off : Option Nat) :
    s.refuseLoad d b off r = ({ s with ti := { s.ti with
      latch := true, lastLoadError := some { directive := bodyCode d.body, table := b, offset := off, code := r } } } : State).reply
        d r (.loadRefused b off) := by
  rw [State.refuseLoad, State.latchError_first latch other]

/-! ### No entry is refused with LATCHED -/

theorem judge_mem {checks : List (Bool × Result)} {r : Result} (refuses : judge checks = some r) : ∃ c, (c, r) ∈ checks := by
  obtain ⟨⟨c, _⟩, found, rfl⟩ := Option.map_eq_some_iff.1 refuses
  exact ⟨c, List.mem_of_find?_eq_some found⟩

theorem asked_error {α : Type} {a : Asked α} {v : Option α → Option Result} {f : Option α → State} {r : Result}
    (refused : asked a v f = .error r) : r = .range ∨ ∃ n, v n = some r := by
  cases a with
  | outOfRange => exact .inl (by simpa [asked] using refused.symm)
  | remove =>
    cases verdict : v none with
    | none => simp [asked, verdict] at refused
    | some q => exact .inr ⟨none, by simpa [asked, verdict] using refused⟩
  | place x =>
    cases verdict : v (some x) with
    | none => simp [asked, verdict] at refused
    | some q => exact .inr ⟨some x, by simpa [asked, verdict] using refused⟩

theorem State.judgeZone_not_latched (s : State) (z : Nat) (n : Option ZoneEntry) : s.judgeZone z n ≠ some .latched := by
  intro refused
  obtain ⟨c, listed⟩ := judge_mem refused
  rcases List.mem_append.1 listed with placed | live
  · cases n with
    | none => cases placed
    | some e => simp [State.zoneChecks] at placed
  · cases old : s.zone z with
    | none => simp [old] at live
    | some o => simp [old, State.zoneLiveChecks] at live

/-- The codes of the entries' checks are never LATCHED (R193). -/
theorem State.loadEntry_not_latched (s : State) (t : TableId) (i : Nat) (e : List Byte) :
    s.loadEntry t i e ≠ .error .latched := by
  have checked {checks : List (Bool × Result)} (none : ∀ c, (c, Result.latched) ∉ checks) :
      judge checks ≠ some .latched := fun refused => (judge_mem refused).elim none
  have asks {α : Type} {a : Asked α} {v : Option α → Option Result} {f : Option α → State} (none : ∀ n, v n ≠ some .latched) :
      asked a v f ≠ .error .latched := fun refused =>
    (asked_error refused).elim (fun range => absurd range (by decide)) (fun ⟨n, code⟩ => none n code)
  unfold State.loadEntry
  cases t with
  | node => exact asks fun n => checked (by simp)
  | zone => exact asks (s.judgeZone_not_latched i)
  | site => exact asks fun n => Option.some_ne_none _ ∘ Eq.symm
  | line => exact asks fun n => checked (by simp)
  | party => exact asks fun n => checked (by simp)
  | catalogue =>
    refine asks fun n => ?_
    cases n with
    | none => exact checked (by simp)
    | some x => exact checked (by simp)

theorem State.loadEntries_not_latched {t : TableId} {first off : Nat} {entries : List (List Byte)} {n : Nat} {r : Result}
    {s : State} (failed : State.loadEntries t first off entries s = .error (n, r)) : r ≠ .latched := by
  induction entries generalizing s off with
  | nil => cases failed
  | cons e entries ih =>
    unfold State.loadEntries at failed
    cases one : s.loadEntry t (first + off) e with
    | ok u =>
      simp only [one] at failed
      exact ih failed
    | error q =>
      simp only [one, Except.error.injEq, Prod.mk.injEq] at failed
      rintro rfl
      exact s.loadEntry_not_latched t (first + off) e (failed.2 ▸ one)

/-! ### Entries placed -/

theorem asked_place {α : Type} {a : Asked α} {x : α} {v : Option α → Option Result} {f : Option α → State}
    (parsed : a = .place x) (passes : v (some x) = none) : asked a v f = .ok (f (some x)) := by
  rw [parsed, asked]
  simp only [passes]

theorem Table.set_get_other {α : Type} (t : Table α) {k j : Nat} (new : Option α) (other : j ≠ k) :
    Table.get (Table.set t k new) j = Table.get t j := by
  cases new with
  | none => exact Table.get_del_other _ other
  | some a => exact Table.get_put_other _ a other

/-! #### The sets of the detectors -/

/-- Every zone has the alarm and the knock set it had. -/
structure State.SameSets (s t : State) : Prop where
  alarm : ∀ y, (t.fire y).alarm = (s.fire y).alarm
  knock : ∀ y, (t.fire y).knock = (s.fire y).knock

theorem State.SameSets.refl (s : State) : State.SameSets s s := ⟨fun _ => rfl, fun _ => rfl⟩

theorem State.SameSets.trans (h : State.SameSets s t) (k : State.SameSets t u) : State.SameSets s u :=
  ⟨fun y => (k.alarm y).trans (h.alarm y), fun y => (k.knock y).trans (h.knock y)⟩

theorem State.SameSets.of_fire (same : t.fz.fire = s.fz.fire) : State.SameSets s t :=
  ⟨fun y => by rw [State.fire_congr same], fun y => by rw [State.fire_congr same]⟩

theorem State.SameSets.of_core {n : Nat} (core : State.FireCore n (fun y => (s.fire y).core) t) : State.SameSets s t :=
  ⟨fun y => Fire.alarm_of_core (core.core y), fun y => Fire.knock_of_core (core.core y)⟩

theorem State.SameSets.setFire (s : State) (z : Nat) {g : Fire} (alarm : g.alarm = (s.fire z).alarm)
    (knock : g.knock = (s.fire z).knock) : State.SameSets s (s.setFire z g) := by
  constructor <;> intro y <;> rw [State.fire_setFire] <;> split
  · next here => rw [here.1, alarm]
  · rfl
  · next here => rw [here.1, knock]
  · rfl

theorem State.SameSets.handOn (s : State) (z : Nat) (b : FireState) : State.SameSets s (s.handOn z b) :=
  .of_core ((State.FireCore.kept s.fz.fire.length (fun y => (s.fire y).core)).handOn ⟨rfl, fun _ => rfl⟩)

theorem State.SameSets.changeFire (s : State) (z : Nat) (c : FireCause) (a : Option Nat) {f : Fire → Fire}
    (alarm : ∀ g, (f g).alarm = g.alarm) (knock : ∀ g, (f g).knock = g.knock) : State.SameSets s (s.changeFire z c a f) :=
  ((State.SameSets.setFire s z (alarm _) (knock _)).trans
    (State.SameSets.of_fire (t := (s.setFire z (f (s.fire z))).postFireState z (s.fire z).state c a) rfl)).trans
      (State.SameSets.handOn _ z _)

theorem State.SameSets.loadCountdown (s : State) (z : Nat) (c : FireCause) : State.SameSets s (s.loadCountdown z c) := by
  unfold State.loadCountdown
  dsimp only
  split
  · exact State.SameSets.changeFire s z .abort none (fun _ => rfl) fun _ => rfl
  · exact State.SameSets.changeFire s z c none (fun _ => rfl) fun _ => rfl

theorem State.SameSets.dischargeCheck (s : State) (z : Nat) : State.SameSets s (s.dischargeCheck z) := by
  unfold State.dischargeCheck
  refine iteInduction (fun _ => State.SameSets.refl s) (fun _ => iteInduction (fun _ => .loadCountdown s z _) (fun _ => ?_))
  have faulted : State.SameSets s (s.setFire z { s.fire z with releaseFault := true }) := .setFire s z rfl rfl
  exact ⟨faulted.alarm, faulted.knock⟩

theorem State.SameSets.confirmFire (s : State) (z : Nat) (c : FireCause) (a : Option Nat) :
    State.SameSets s (s.confirmFire z c a) :=
  (State.SameSets.changeFire s z c a (f := fun f => { f with state := .confirmed }) (fun _ => rfl) fun _ => rfl).trans
    (State.SameSets.dischargeCheck _ z)

theorem State.SameSets.recountHealthy (s : State) (z : Nat) : State.SameSets s (s.recountHealthy z) := by
  unfold State.recountHealthy
  refine iteInduction (fun _ => State.SameSets.refl s) (fun _ => ?_)
  unfold State.healthyCount
  refine iteInduction (fun _ => ?_) (fun _ => ⟨fun _ => rfl, fun _ => rfl⟩)
  have confirmed := State.SameSets.confirmFire (State.evalFault { s with nt := { s.nt with
    healthyCount := s.nt.healthyCount.set z (countHealthy s.nt.nodes z) } }) z .healthyCount none
  exact ⟨confirmed.alarm, confirmed.knock⟩

theorem State.SameSets.recountFor (s : State) (e : Option NodeEntry) : State.SameSets s (s.recountFor e) := by
  cases e with
  | none => exact State.SameSets.refl s
  | some e =>
    unfold State.recountFor
    refine iteInduction (fun _ => ?_) (fun _ => State.SameSets.refl s)
    have counted := State.SameSets.recountHealthy (s.recountDetectors e.zone) e.zone
    exact ⟨counted.alarm, counted.knock⟩

theorem State.SameSets.reloadLock (s : State) (a : Nat) (old new : Option NodeEntry) :
    State.SameSets s (s.reloadLock a old new) := by
  have k := (State.FireCore.kept s.fz.fire.length (fun y => (s.fire y).core)).toKept
  have start : State.FireCore s.fz.fire.length (fun y => (s.fire y).core) s := ⟨rfl, fun _ => rfl⟩
  unfold State.reloadLock
  split
  · exact .of_core (k.settleFireHold start)
  · exact .of_core (k.removeLock start)
  · exact .of_core (k.createLock start)
  · exact .refl s

/-- A detector that leaves its zone leaves its sets (R101). -/
theorem State.applyNode_sets {a : Nat} {o n : NodeEntry} (old : s.node a = some o) (detector : o.cls = .detector)
    (leaves : n.cls ≠ .detector ∨ n.zone ≠ o.zone) :
    a ∉ ((s.applyNode a (some n)).fire o.zone).alarm ∧ a ∉ ((s.applyNode a (some n)).fire o.zone).knock := by
  have gone : (decide (o.cls = .detector) && !meets (some n) (fun n => n.cls = .detector && n.zone = o.zone)) = true := by
    rcases leaves with other | other <;> simp [detector, meets, other]
  have dropped (v : State) : a ∉ ((v.dropDetector o.zone a).fire o.zone).alarm ∧ a ∉ ((v.dropDetector o.zone a).fire o.zone).knock := by
    rw [State.dropDetector, State.fire_setFire]
    split
    · simp [setErase]
    · next outside =>
      have absent : v.fire o.zone = Fire.initial :=
        List.getD_eq_default _ _ (Nat.le_of_not_lt fun place => outside ⟨rfl, place⟩)
      rw [absent]
      simp [Fire.initial]
  have later (v : State) : State.SameSets v
      (((v.recountFor (some o)).recountFor (some n)).reloadLock a (some o) (some n)).recountDown :=
    have counted := ((State.SameSets.recountFor v (some o)).trans (State.SameSets.recountFor _ (some n))).trans
      (State.SameSets.reloadLock _ a (some o) (some n))
    ⟨counted.alarm, counted.knock⟩
  have applied : ∃ v : State, s.applyNode a (some n) =
      ((((v.dropDetector o.zone a).recountFor (some o)).recountFor (some n)).reloadLock a (some o) (some n)).recountDown := by
    unfold State.applyNode
    simp only [old, gone, if_true]
    exact ⟨_, rfl⟩
  obtain ⟨v, applied⟩ := applied
  rw [applied, (later _).alarm o.zone, (later _).knock o.zone]
  exact dropped v

/-! #### A new lock -/

/-- What a lock's record holds beside the sending. -/
def Lock.rest (l : Lock) : Lock := { l with sent := .locked, send := .idle }

theorem State.lockRest_setLock {a c : Nat} {l l' : Lock} (record : s.lock c = some l) (same : l'.rest = l.rest) :
    ((s.setLock c l').lock a).map Lock.rest = (s.lock a).map Lock.rest := by
  by_cases here : a = c
  · subst here
    rw [State.lock_setLock_same, record, Option.map_some, Option.map_some, same]
  · rw [State.lock_setLock_other s l' here]

theorem State.lockRest_lockDropped (s : State) (c : Nat) (live : Bool) (a : Nat) :
    ((s.lockDropped c live).lock a).map Lock.rest = (s.lock a).map Lock.rest := by
  unfold State.lockDropped
  split
  · next l record => exact State.lockRest_setLock record rfl
  · rfl

/-- DROPPED changes of a lock's record no more than the sending (R57). -/
theorem State.lockRest_dropped (s : State) (o : Origin) (a : Nat) :
    ((s.dropped o).lock a).map Lock.rest = (s.lock a).map Lock.rest := by
  have still : ∀ {v : State}, v.la = s.la → (v.lock a).map Lock.rest = (s.lock a).map Lock.rest := by
    intro v same
    rw [State.lock, same, State.lock]
  cases o with
  | lockSet c live => exact s.lockRest_lockDropped c live a
  | passDown => exact still (by unfold State.dropped; simp)
  | release z live => cases live <;> rfl
  | actSet z r p live => exact still (by show (s.actDropped z r p live).la = _; simp)
  | pick n d => exact still (by show (s.pickDropped n d).la = _; simp)
  | alert | pickWithdraw | result _ => rfl

theorem State.lockRest_requestTx (s : State) (r : TxRequest) (a : Nat) :
    ((s.requestTx r).lock a).map Lock.rest = (s.lock a).map Lock.rest := by
  unfold State.requestTx
  split
  · rfl
  · split
    · exact State.lockRest_dropped _ _ _
    · exact State.lockRest_dropped _ _ _

/-- The record of a lock as it is created (R53). -/
def Lock.created : Lock :=
  { claims := { handover0 := false, handover1 := false, maintenance := none, fireHold := false }, commanded := .locked,
    sent := .locked, send := .idle, fault := false, door := .unknown, doorTimer := none, heldMark := false }

theorem State.createLock_eq (s : State) (a : Nat) :
    s.createLock a = ((s.setLock a Lock.created).sendLock a).settleFireHold a := rfl

/-- A new record is commanded LOCKED, its door UNKNOWN and no fault standing, whatever became of its first LOCK_SET (R53). -/
theorem State.createLock_record (s : State) (a : Nat) :
    ∃ l, (s.createLock a).lock a = some l ∧ l.commanded = .locked ∧ l.door = .unknown ∧ l.fault = false := by
  rw [State.createLock_eq]
  have rest : (((s.setLock a Lock.created).sendLock a).lock a).map Lock.rest = some Lock.created.rest := by
    unfold State.sendLock
    rw [State.lock_setLock_same]
    dsimp only
    rw [State.lockRest_requestTx, State.lock_setLock_same]
    rfl
  obtain ⟨sent, record, same⟩ := Option.map_eq_some_iff.1 rest
  have claims : sent.claims = Lock.created.claims := (congrArg Lock.claims same :)
  have commanded : sent.commanded = .locked := (congrArg Lock.commanded same :)
  have door : sent.door = .unknown := (congrArg Lock.door same :)
  have fault : sent.fault = false := (congrArg Lock.fault same :)
  by_cases settled : sent.claims.fireHold = ((s.setLock a Lock.created).sendLock a).fireHoldDue a
  · rw [State.settleFireHold_settled record settled]
    exact ⟨sent, record, commanded, door, fault⟩
  unfold State.settleFireHold
  rw [record]
  dsimp only
  rw [if_neg settled, State.setClaims_same record]
  · exact ⟨_, State.lock_setLock_same _ _ _, commanded, door, fault⟩
  · rw [commanded, claims, Claims.command_eq]
    simp [Lock.created]

theorem State.applyNode_newLock {a : Nat} {n : NodeEntry} (new : s.node a = none) (lock : n.cls = .lock) :
    ∃ l, (s.applyNode a (some n)).lock a = some l ∧ l.commanded = .locked ∧ l.door = .unknown ∧ l.fault = false := by
  have applied : ∃ v : State, s.applyNode a (some n) = (v.createLock a).recountDown := by
    unfold State.applyNode
    simp only [new, State.recountFor, lock, reduceCtorEq, if_false, State.reloadLock, meets, decide_true]
    exact ⟨_, rfl⟩
  obtain ⟨v, applied⟩ := applied
  rw [applied]
  exact v.createLock_record a

/-! #### A zone entry -/

theorem State.applyZone_states (s : State) (z : Nat) (x : ZoneEntry) (y : Nat) :
    ((s.applyZone z (some x)).fire y).state = (s.fire y).state := by
  have k := (State.FireCore.kept s.fz.fire.length (fun y => (s.fire y).core)).toKept
  have start : State.FireCore s.fz.fire.length (fun y => (s.fire y).core) s := ⟨rfl, fun _ => rfl⟩
  have core : State.FireCore s.fz.fire.length (fun y => (s.fire y).core) (s.applyZone z (some x)) := by
    have emptied : State.FireCore s.fz.fire.length (fun y => (s.fire y).core)
        (if (((s.zone z).bind (·.climate)).isSome && !((some x).bind (·.climate)).isSome) = true then s.emptyClimate z else s) :=
      iteInduction (fun _ => k.emptyClimate start) (fun _ => start)
    unfold State.applyZone
    simp only [Option.isNone_some, Bool.and_false, Bool.false_eq_true, if_false]
    refine (State.FireCore.kept _ _).evalFault ?_
    have settled : ∀ {v : State} {g as}, State.FireCore s.fz.fire.length (fun y => (s.fire y).core) v →
        State.FireCore s.fz.fire.length (fun y => (s.fire y).core) ((v.reloadPlant z g).settleFireHolds as).reloadConditions :=
      fun held => ⟨(k.settleFireHolds (k.reloadPlant held)).size, (k.settleFireHolds (k.reloadPlant held)).core⟩
    exact settled (iteInduction (fun _ => k.setClimate ⟨emptied.size, emptied.core⟩)
      (fun _ => iteInduction (fun _ => k.setClimate ⟨emptied.size, emptied.core⟩) (fun _ => ⟨emptied.size, emptied.core⟩)))
  exact Fire.state_of_core (core.core y)

theorem State.applyZone_conditions (s : State) (z : Nat) (x : ZoneEntry) {y : Nat} (small : y < 16) :
    (s.applyZone z (some x)).conditions y = (s.applyZone z (some x)).computeConditions y := by
  unfold State.applyZone
  simp only [Option.isNone_some, Bool.and_false, Bool.false_eq_true, if_false]
  generalize State.settleFireHolds _ _ = v
  have computed : v.reloadConditions.evalFault.conditions y = v.computeConditions y := by
    unfold State.conditions
    simp [State.reloadConditions, State.evalFault, zoneNumbers, small]
  exact computed.trans (State.computeConditions_congr rfl rfl y).symm

theorem State.climate_emptyClimate_other (s : State) {z y : Nat} (other : y ≠ z) : (s.emptyClimate z).climate y = s.climate y := by
  unfold State.emptyClimate
  dsimp only
  split
  · rw [State.climate_postClimate, State.climate_setClimate_other s _ other]
  · rw [State.climate_demandReport, State.climate_postClimate, State.climate_setClimate_other s _ other]

theorem State.climate_congr {v w : State} (same : v.cu = w.cu) (y : Nat) : v.climate y = w.climate y := by
  rw [State.climate, same, State.climate]

/-- What becomes of the climate records at a zone load: the zone's own may be emptied or told to decide its demand anew (R60,
R71). -/
theorem State.applyZone_climate (s : State) (z : Nat) (x : ZoneEntry) (y : Nat) :
    (s.applyZone z (some x)).climate y =
      (let gains := x.climate.isSome
       let had := ((s.zone z).bind (·.climate)).isSome
       let s1 := if had && !gains then s.emptyClimate z else s
       if gains && !had then s1.setClimate z Climate.empty
       else if toAuto (s.zone z) (some x) then s1.setClimate z { s1.climate z with fromNone := true } else s1).climate y := by
  refine State.climate_congr ?_ y
  unfold State.applyZone
  simp only [Option.isNone_some, Bool.and_false, Bool.false_eq_true, if_false, Option.bind_some, State.evalFault_frame,
    State.reloadConditions_frame, State.settleFireHolds_frame, State.reloadPlant_frame]
  split
  · rfl
  · split <;> rfl

theorem State.applyZone_climate_other (s : State) (z : Nat) (x : ZoneEntry) {y : Nat} (other : y ≠ z) :
    (s.applyZone z (some x)).climate y = s.climate y := by
  have first : (if ((s.zone z).bind (·.climate)).isSome && !x.climate.isSome then s.emptyClimate z else s).climate y
      = s.climate y := by
    split
    · exact s.climate_emptyClimate_other other
    · rfl
  rw [State.applyZone_climate]
  dsimp only
  split
  · exact (State.climate_setClimate_other _ _ other).trans first
  · split
    · exact (State.climate_setClimate_other _ _ other).trans first
    · exact first

theorem State.applyZone_climate_new {z : Nat} {x : ZoneEntry} (place : z < s.cu.climate.length) (none : s.climateGroup z = none)
    (gains : x.climate.isSome = true) : (s.applyZone z (some x)).climate z = Climate.empty := by
  have had : ((s.zone z).bind (·.climate)).isSome = false := by
    rw [show (s.zone z).bind (·.climate) = Option.none from none]
    rfl
  rw [State.applyZone_climate]
  simp only [had, gains, Bool.not_false, Bool.and_self, Bool.false_and, Bool.false_eq_true, if_true, if_false]
  exact State.climate_setClimate_same place _

/-! #### A line and a party -/

theorem ofOption_place {α : Type} {o : Option α} {x : α} (placed : Asked.ofOption o = .place x) : o = some x := by
  cases o with
  | none => cases placed
  | some y => cases placed; rfl

/-- A line that is placed has the raw level for its settled one, its timer stopped (R48). -/
theorem parseLine_place {raw : Level} {e : List Byte} {l : LineEntry} (placed : parseLine raw e = .place l) :
    l.settled = raw ∧ l.timer = none := by
  unfold parseLine at placed
  split at placed
  · cases placed
  · have placed := ofOption_place placed
    simp only [bind, Option.bind_eq_some_iff] at placed
    obtain ⟨_, _, _, _, _, _, _, _, made⟩ := placed
    cases made
    exact ⟨rfl, rfl⟩
  · cases placed

theorem State.applyLine_conditions (s : State) (n : Nat) (l : Option LineEntry) {z : Nat} (small : z < 16) :
    (s.applyLine n l).conditions z = (s.applyLine n l).computeConditions z := by
  have computed : (s.applyLine n l).conditions z
      = ({ s with lu := { s.lu with lines := Table.set s.lu.lines n l } } : State).computeConditions z := by
    unfold State.conditions
    simp [State.applyLine, State.reloadConditions, zoneNumbers, small]
  exact computed.trans (State.computeConditions_congr rfl rfl z).symm

theorem parseCourierFields_held {e : List Byte} {c : CourierFields} (parsed : parseCourierFields e = some c) : c.held = 0 := by
  unfold parseCourierFields at parsed
  simp only [bind, Option.bind_eq_some_iff] at parsed
  obtain ⟨_, _, _, _, _, _, _, _, _, _, _, _, made⟩ := parsed
  cases made
  rfl

/-- A courier comes from a party entry with nothing held (R147). -/
theorem parseParty_held {e : List Byte} {p : Party} {c : CourierFields} (placed : parseParty e = .place p)
    (courier : p.courier = some c) : c.held = 0 := by
  unfold parseParty at placed
  split at placed
  · cases placed
  · have placed := ofOption_place placed
    simp only [bind, Option.bind_eq_some_iff] at placed
    obtain ⟨_, _, _, _, fields, parsed, made⟩ := placed
    cases made
    cases courier
    exact parseCourierFields_held parsed
  · have placed := ofOption_place placed
    simp only [bind, Option.bind_eq_some_iff] at placed
    obtain ⟨_, _, _, _, made⟩ := placed
    split at made
    · cases made
      cases courier
    · cases made
  · cases placed

/-- The party as it stands after a load: a courier that stays keeps its held count (R150). -/
def Party.keptFrom (p : Party) (old : Option Party) : Party :=
  match old, p.courier with
  | some o, some c =>
    if o.id = p.id then { p with courier := some { c with held := ((o.courier.map (·.held)).getD 0) } } else p
  | _, _ => p

theorem State.applyParty_some (s : State) (k : Nat) (p : Party) :
    s.applyParty k (some p)
      = { s with pt := { s.pt with parties := Table.put s.pt.parties k (p.keptFrom (Table.get s.pt.parties k)) } } := rfl

theorem Party.keptFrom_fields (p : Party) (old : Option Party) :
    (p.keptFrom old).id = p.id ∧ (p.keptFrom old).active = p.active
      ∧ (p.keptFrom old).courier.isSome = p.courier.isSome := by
  unfold Party.keptFrom
  split
  · next o c _ courier =>
    split
    · exact ⟨rfl, rfl, by rw [courier]; rfl⟩
    · exact ⟨rfl, rfl, rfl⟩
  · exact ⟨rfl, rfl, rfl⟩

theorem Party.keptFrom_courier {p o : Party} {c g : CourierFields} (id : o.id = p.id) (courier : p.courier = some c)
    (old : o.courier = some g) : (p.keptFrom (some o)).courier = some { c with held := g.held } := by
  simp [Party.keptFrom, courier, old, id]

/-! ### The obligation -/

/-- Settles O57: `State.loadSegment` by its checks in their order, no entry's refusal being LATCHED, and the consequences of
each entry by what `applyNode`, `applyZone`, `applyLine` and `applyParty` leave. -/
theorem loadSegmentIsAppliedWholeOrNotAtAll : Obligations.LoadSegmentIsAppliedWholeOrNotAtAll := by
  refine ⟨?_, ?_, fun t i0 i1 c f => ⟨rfl, parseSegment_none_iff t i0 i1 c f⟩, fun s t g => s.judgeSegment_eq t g, ?_, ?_, ?_, ?_⟩
  · intro s d b f t g hand body table parsed s1 entries refused
    have row := exec_loadSegment_formed hand body table parsed
    have code : bodyCode d.body = 0x10#8 := by rw [body]; rfl
    have refuses : ∀ {r}, s.judgeSegment t g = some r →
        exec .loadSegment s = .next (s1.refuseLoad d b none r).takeNext := by
      intro r judged
      have same : s.taken.judgeSegment t g = some r := judged
      rw [row, State.loadSegment, same]
    have passes : s.judgeSegment t g = none → exec .loadSegment s = .next (if t = .catalogue then
          { s1 with ti := { s1.ti with inHand := some (.catalogueLoad d g.first g.count g.entries) } }
        else s1.finishLoad d b g.count (State.loadEntries t g.first 0 entries s1)).takeNext := by
      intro judged
      have same : s.taken.judgeSegment t g = none := judged
      rw [row, State.loadSegment, same]
    have first : s.ti.latch = false → ∀ {r off}, r ≠ .latched → (s1.refuseLoad d b off r).takeNext = refused r off := by
      intro latch r off other
      rw [State.refuseLoad_first (s := s1) latch other, code]
      rfl
    refine ⟨fun latch => ⟨?_, fun r judged => ?_⟩, fun r latch judged => ?_, ?_, ?_, ?_⟩
    · rw [s.judgeSegment_eq]
      split
      · exact .inr rfl
      · exact .inl rfl
    · rw [refuses judged, State.refuseLoad_latched (s := s1) latch]
      rfl
    · rw [refuses judged, first latch]
      rintro rfl
      rw [s.judgeSegment_eq, latch] at judged
      (repeat' split at judged) <;> simp_all
    · rintro rfl judged
      rw [passes judged, if_pos rfl, State.takeNext_busy (by simp)]
    · intro s2 other judged loaded
      rw [passes judged, if_neg other, loaded]
      rfl
    · intro off r other judged failed
      have latch : s.ti.latch = false := by
        rw [s.judgeSegment_eq] at judged
        cases held : s.ti.latch with
        | false => rfl
        | true => (repeat' split at judged) <;> simp_all
      rw [passes judged, if_neg other, failed, ← first latch (State.loadEntries_not_latched failed)]
      rfl
  · intro s d b f hand s1 noted
    refine ⟨fun body wrong => ?_, fun body => ?_⟩
    · have code : bodyCode d.body = 0x10#8 := by rw [body]; rfl
      rw [exec_loadSegment_malformed hand body wrong]
      cases latch : s.ti.latch with
      | true =>
        rw [State.refuseLoad_latched (s := s.taken) latch]
        simp only [noted, latch, if_true]
        rfl
      | false =>
        rw [State.refuseLoad_first (s := s.taken) latch (by decide), code]
        simp only [noted, latch, Bool.false_eq_true, if_false]
        rfl
    · exact exec_loadSegment_short hand body
  · intro s i e n parsed passes
    refine ⟨s.applyNode (i + 1) (some n), asked_place parsed passes, ?_, fun a other => ?_, fun o old detector leaves => ?_,
      fun new lock => State.applyNode_newLock new lock⟩
    · rw [State.node, State.applyNode_nodes]
      exact Table.get_put_same _ _ _
    · rw [State.node, State.applyNode_nodes]
      exact Table.set_get_other _ _ other
    · exact State.applyNode_sets old detector leaves
  · intro s z e x shaped small parsed passes
    refine ⟨s.applyZone z (some x), asked_place parsed passes, ?_, fun y other => ?_,
      fun y place => State.applyZone_conditions s z x place, s.applyZone_states z x, fun none gains => ?_,
      fun y other => s.applyZone_climate_other z x other⟩
    · rw [State.zone, (s.applyZone_frame z (some x)).1]
      exact Table.get_put_same _ _ _
    · rw [State.zone, (s.applyZone_frame z (some x)).1]
      exact Table.set_get_other s.zt.zones (some x) other
    · exact State.applyZone_climate_new (by rwa [State.shaped_climate_length shaped]) none gains
  · intro s n e l parsed passes
    obtain ⟨settled, timer⟩ := parseLine_place parsed
    exact ⟨s.applyLine n (some l), asked_place parsed passes, Table.get_put_same _ _ _, settled, timer,
      fun z small => s.applyLine_conditions n (some l) small, rfl, rfl⟩
  · intro s k e p parsed passes
    obtain ⟨id, active, courier⟩ := p.keptFrom_fields (Table.get s.pt.parties k)
    refine ⟨s.applyParty k (some p), p.keptFrom (Table.get s.pt.parties k), asked_place parsed passes, ?_, ?_, id, active,
      courier, fun o c g old same fields held => ?_, fun c absent fields => ?_⟩
    · rw [State.applyParty_some]
    · exact Table.get_put_same _ _ _
    · rw [old]
      exact Party.keptFrom_courier same fields held
    · rw [absent]
      exact ⟨fields, parseParty_held parsed fields⟩

end Sys2Proof.Machine
end

section
/-! SUPPORT. What a telegram asked for, and nothing else after a release, can change of the fire records and of the queue: a
predicate on these that survives every request survives the steps by which a change of fire state is handed on (R116). -/

namespace Sys2Proof.Machine

/-- The predicate speaks of the fire records and the queue alone, and survives every request and every change of the queued
items' originators but of a RELEASE's. -/
structure KeptByRequests (P : State → Prop) : Prop where
  same : ∀ {s t : State}, t.fz.fire = s.fz.fire → t.lif = s.lif → P s → P t
  origins : ∀ {s : State} {f : Origin → Origin}, (∀ z live, f (.release z live) = .release z live) → P s → P (s.mapOrigins f)
  request : ∀ {s : State} {r : TxRequest}, P s → P (s.requestTx r)

namespace KeptByRequests

variable {P : State → Prop} (k : KeptByRequests P) {s : State}
include k

theorem post {b : NoticeBody} (h : P s) : P (s.post b) := k.same (s := s) rfl rfl h

/-! ### Locks -/

theorem sendLock {a : Nat} (h : P s) : P (s.sendLock a) := by
  unfold State.sendLock
  cases s.lock a with
  | none => exact h
  | some l => exact k.request (k.same (s := s) rfl rfl h)

theorem decideLock {a : Nat} (h : P s) : P (s.decideLock a) := by
  unfold State.decideLock
  cases s.lock a with
  | none => exact h
  | some l =>
    have decided : P (s.setLock a { l with commanded := l.claims.command }) := k.same (s := s) rfl rfl h
    exact iteInduction (fun _ => h) (fun _ => iteInduction (fun _ => k.sendLock decided) (fun _ => decided))

theorem setClaims {a : Nat} {f : Claims → Claims} (h : P s) : P (s.setClaims a f) := by
  unfold State.setClaims
  cases s.lock a with
  | none => exact h
  | some l => exact k.decideLock (k.same (s := s) rfl rfl h)

theorem settleFireHold {a : Nat} (h : P s) : P (s.settleFireHold a) := by
  unfold State.settleFireHold
  cases s.lock a with
  | none => exact h
  | some l => exact iteInduction (fun _ => h) (fun _ => k.setClaims h)

theorem settleFireHolds {as : List Nat} (h : P s) : P (s.settleFireHolds as) :=
  foldl_kept (fun _ _ held => k.settleFireHold held) as h

theorem dropHandoverClaim {e : Hatch} (h : P s) : P (s.dropHandoverClaim e) := by
  unfold State.dropHandoverClaim
  cases s.hatchZone e with
  | none => exact h
  | some g => exact k.setClaims h

/-! ### Plant units -/

theorem failActuator {z : Nat} {r : Role} {b : ActState} {on : Bool} {w : ActReason} (h : P s) : P (s.failActuator z r b on w) := by
  unfold State.failActuator
  cases s.actuator z r with
  | none => exact h
  | some a =>
    refine iteInduction (fun _ => h) (fun _ => ?_)
    exact k.post (k.origins (fun _ _ => rfl) (k.same (s := s) rfl rfl h))

theorem startUnit {z : Nat} {r : Role} (h : P s) : P (s.startUnit z r) := by
  unfold State.startUnit
  cases s.actuator z r with
  | none => exact h
  | some a => exact iteInduction (fun _ => k.request (k.same (s := s) rfl rfl h)) (fun _ => k.failActuator h)

theorem restOver {z : Nat} {r : Role} (h : P s) : P (s.restOver z r) := by
  unfold State.restOver
  cases s.actuator z r with
  | none => exact h
  | some a =>
    have off : P (s.setActuator z r { a with state := .off, rest := none }) := k.same (s := s) rfl rfl h
    exact iteInduction (fun _ => k.startUnit off) (fun _ => off)

theorem enterRest {z : Nat} {r : Role} (h : P s) : P (s.enterRest z r) := by
  unfold State.enterRest
  cases s.actuator z r with
  | none => exact h
  | some a =>
    have rests {n : Option Nat} : P (s.setActuator z r { a with state := .rest, run := .stopped, rest := n }) :=
      k.same (s := s) rfl rfl h
    exact iteInduction (fun _ => k.restOver rests) (fun _ => rests)

theorem returnRecord {z : Nat} {r : Role} (h : P s) : P (s.returnRecord z r) := by
  unfold State.returnRecord
  cases s.actuator z r with
  | none => exact h
  | some a => exact iteInduction (fun _ => k.enterRest h) (fun _ => h)

theorem returnPlant {z : Nat} (h : P s) : P (s.returnPlant z) := k.returnRecord (k.returnRecord h)

/-! ### Orders -/

theorem releaseOrder {n : Nat} (h : P s) : P (s.releaseOrder n) := by
  have set {o : Order} : P (s.setOrder o) := k.same (s := s) rfl rfl h
  unfold State.releaseOrder
  split
  · exact h
  · split
    · exact set
    · exact set
    · split
      · exact k.request set
      · exact set
    · split
      · exact k.request set
      · exact set

theorem settlePick {n : Nat} (h : P s) : P (s.settlePick n) := by
  have set {o : Order} : P (s.setOrder o) := k.same (s := s) rfl rfl h
  unfold State.settlePick
  split
  · exact h
  · split
    · exact k.request set
    · exact set
    · exact h
    · exact h

theorem moveOrder {n : Nat} {st : OrderState} (h : P s) : P (s.moveOrder n st) := by
  unfold State.moveOrder
  cases s.order n with
  | none => exact h
  | some o =>
    have moved : P (s.setOrder { o with state := st }) := k.same (s := s) rfl rfl h
    exact iteInduction (fun _ => k.settlePick moved) (fun _ => moved)

theorem closeOrder {n : Nat} {w : OrderReason} (h : P s) : P (s.closeOrder n w) := by
  unfold State.closeOrder
  cases s.order n with
  | none => exact h
  | some o =>
    have detached : P ((s.settlePick n).detachPick n) := k.origins (fun _ _ => rfl) (k.settlePick h)
    exact k.post (k.same (s := (s.settlePick n).detachPick n) rfl rfl detached)

theorem ordersFire {z : Nat} {b a : FireState} (h : P s) : P (s.ordersFire z b a) := by
  unfold State.ordersFire
  refine iteInduction (fun _ => ?_) (fun _ => iteInduction (fun _ => ?_) (fun _ => h))
  · exact foldl_kept (f := fun s n => s.moveOrder n .waiting) (fun _ _ held => k.moveOrder held) _ h
  · exact foldl_kept (f := State.releaseOrder) (fun _ _ held => k.releaseOrder held) _ h

theorem quarantineRecord {z i : Nat} {acc : State × Nat × Nat} (h : P acc.1) : P (State.quarantineRecord z acc i).1 := by
  have set {c : Cartridge} : P (acc.1.setCartridge i c) := k.same (s := acc.1) rfl rfl h
  unfold State.quarantineRecord
  split
  · exact h
  · split
    · split
      · exact k.closeOrder set
      · exact set
    · exact h

theorem quarantineZone {z : Nat} (h : P s) : P (s.quarantineZone z) := by
  have marked : ∀ (l : List Nat) (acc : State × Nat × Nat), P acc.1 → P (l.foldl (State.quarantineRecord z) acc).1 := by
    intro l
    induction l with
    | nil => exact fun _ held => held
    | cons i l ih => exact fun acc held => ih _ (k.quarantineRecord held)
  exact k.post (marked (s.cat.cartridges.map (·.1)) (s, 0, 0) h)

/-! ### Engines -/

theorem setEngine {e : Hatch} {x : Engine} (h : P s) : P (s.setEngine e x) := by
  cases e <;> exact k.same (s := s) rfl rfl h

theorem endResult {e : Hatch} {c : NodeClass} {code : ResultCode} (h : P s) : P (s.endResult e c code) := by
  unfold State.endResult
  cases s.terminal c e with
  | none => exact h
  | some a => exact k.request h

theorem endExchange {e : Hatch} {c : HandoverCause} {l : List (Nat × Label)} {d : Option Nat} {g : Option (Nat × Nat)} (h : P s) :
    P (s.endExchange e c l d g) :=
  k.setEngine (k.endResult (k.endResult (k.post h)))

theorem abortOne {i : Nat} (h : P s) : P (s.abortOne i) := by
  have set {c : Cartridge} : P (s.setCartridge i c) := k.same (s := s) rfl rfl h
  unfold State.abortOne
  split
  · exact h
  · dsimp only
    split
    · exact k.moveOrder set
    · exact set

theorem abortExchange {e : Hatch} {c : HandoverCause} (h : P s) : P (s.abortExchange e c) := by
  have given : P ((s.engine e).list.foldl State.abortOne s) := foldl_kept (fun _ _ held => k.abortOne held) _ h
  exact k.endExchange (iteInduction (fun _ => given) (fun _ => k.dropHandoverClaim given))

theorem takeIn {g : Option Nat} {a i : Nat} (h : P s) : P (State.takeIn g a s i) := by
  unfold State.takeIn
  cases s.cartridge i with
  | none => exact h
  | some c => exact k.same (s := s) (by simp) (by simp) h

theorem commitIn {e : Hatch} {c : HandoverCause} (h : P s) : P (s.commitIn e c) :=
  k.endExchange (k.dropHandoverClaim (foldl_kept (fun _ _ held => k.takeIn held) _ h))

theorem engineFire {e : Hatch} (h : P s) : P (s.engineFire e) :=
  iteInduction (fun _ => k.abortExchange h) (fun _ => iteInduction (fun _ => k.commitIn h) (fun _ => h))

/-! ### The steps of a change after the release telegram (R116) -/

theorem tellHatchEngine {z : Nat} (h : P s) : P (s.tellHatchEngine z) := by
  unfold State.tellHatchEngine
  split
  · exact iteInduction (fun _ => k.engineFire h) (fun _ => h)
  · exact h

theorem evalFireActive (h : P s) : P s.evalFireActive := by
  unfold State.evalFireActive
  refine iteInduction (fun _ => h) (fun _ => ?_)
  have active {b : Bool} : P { s with fz := { s.fz with fireActive := b } } := k.same (s := s) rfl rfl h
  have held {b : Bool} : P (if s.fz.pendingAlert then { s with fz := { s.fz with fireActive := b } }
      else ({ s with fz := { s.fz with fireActive := b } } : State).requestTx (alertRequest b)) :=
    iteInduction (fun _ => active) (fun _ => k.request active)
  exact iteInduction (fun _ => k.engineFire (k.engineFire (k.settleFireHolds held))) (fun _ => k.settleFireHolds held)

end KeptByRequests
end Sys2Proof.Machine
end

section
/-! PROOFS. FIRE_RESET and the expiry of a countdown: what the zone's record, the queue and the cartridges are left with. -/

namespace Sys2Proof.Machine

variable {s t : State} {z : Nat}

/-! ### What requests leave of the releases (R110, R111) -/

/-- DROPPED changes of a fire record at most the pending release. -/
theorem State.fire_dropped (s : State) (o : Origin) (y : Nat) :
    (s.dropped o).fire y = s.fire y ∨ (s.dropped o).fire y = { s.fire y with pendingRelease := true } := by
  have still : ∀ {v : State}, v.fz = s.fz → v.fire y = s.fire y ∨ v.fire y = { s.fire y with pendingRelease := true } :=
    fun same => .inl (State.fire_congr (congrArg Fz.fire same) y)
  cases o with
  | release x live =>
    cases live with
    | false => exact .inl rfl
    | true =>
      have waits : (s.dropped (.release x true)).fire y
          = if y = x ∧ x < s.fz.fire.length then { s.fire x with pendingRelease := true } else s.fire y := State.fire_setFire ..
      rw [waits]
      split
      · next here => exact .inr (by rw [here.1])
      · exact .inl rfl
  | alert => exact .inl rfl
  | lockSet a live => exact still (by show (s.lockDropped a live).fz = _; simp)
  | actSet x r p live => exact still (by show (s.actDropped x r p live).fz = _; simp)
  | pick n d => exact still (by show (s.pickDropped n d).fz = _; simp)
  | pickWithdraw => exact .inl rfl
  | result h => exact .inl rfl
  | passDown => exact still (by show (s.passDownOutcome .dropped).fz = _; simp)

theorem State.fire_requestTx (s : State) (r : TxRequest) (y : Nat) :
    (s.requestTx r).fire y = s.fire y ∨ (s.requestTx r).fire y = { s.fire y with pendingRelease := true } := by
  unfold State.requestTx
  split
  · exact .inl rfl
  · split
    · next v _ => exact (s.removeTx v.arrival).fire_dropped v.origin y
    · exact s.fire_dropped r.origin y

theorem keptUnconfirmed (z : Nat) (b : Bool) : KeptByRequests (fun s => (s.fire z).unconfirmed = b) where
  same fire _ h := by rwa [State.fire_congr fire]
  origins _ h := h
  request {s r} h := by rcases s.fire_requestTx r z with same | same <;> rw [same] <;> exact h

theorem keptPending (z : Nat) : KeptByRequests (fun s => (s.fire z).pendingRelease = true) where
  same fire _ h := by rwa [State.fire_congr fire]
  origins _ h := h
  request {s r} h := by
    rcases s.fire_requestTx r z with same | same <;> rw [same]
    exact h

/-- The RELEASE telegram of a zone's release stands in the queue, its arrival number its own (R110). -/
def State.holdsRelease (s : State) (z a : Nat) : Prop :=
  ∃ x ∈ s.lif.txq, (x.cls = .fire ∧ x.dest = a ∧ x.kind = 0x80#8 ∧ x.payload = [BitVec.ofNat 8 z] ∧ x.origin = .release z true)
    ∧ x.arrival < s.lif.txArrivals ∧ ∀ y ∈ s.lif.txq, y.arrival = x.arrival → y = x

theorem State.holdsRelease_placeTx {a : Nat} (r : TxRequest) (h : s.holdsRelease z a) : (s.placeTx r).holdsRelease z a := by
  obtain ⟨x, mem, telegram, below, alone⟩ := h
  refine ⟨x, List.mem_append_left _ mem, telegram, Nat.lt_succ_of_lt below, fun y listed same => ?_⟩
  rcases List.mem_append.1 listed with old | new
  · exact alone y old same
  · rw [List.mem_singleton.1 new] at same
    exact absurd same (Nat.ne_of_gt below)

theorem State.holdsRelease_congr {a : Nat} (same : t.lif = s.lif) (h : s.holdsRelease z a) : t.holdsRelease z a := by
  rwa [State.holdsRelease, same]

/-- No request takes the place of a telegram of the FIRE class (R21). -/
theorem State.holdsRelease_removeTx {a : Nat} {v : TxItem} {c : TxClass} (found : evictee s.lif.txq c = some v)
    (h : s.holdsRelease z a) : (s.removeTx v.arrival).holdsRelease z a := by
  obtain ⟨x, mem, telegram, below, alone⟩ := h
  obtain ⟨listed, evicted⟩ := evictee_mem found
  have lower : v.cls ≠ .fire := by
    intro fire
    have rank := ((evictable_iff v).1 evicted).1
    rw [fire] at rank
    cases c <;> exact absurd rank (by decide)
  have other : x.arrival ≠ v.arrival := fun same => lower (by rw [alone v listed same.symm]; exact telegram.1)
  exact ⟨x, List.mem_filter.2 ⟨mem, decide_eq_true other⟩, telegram, below,
    fun y listed => alone y (List.mem_filter.1 listed).1⟩

theorem keptHolds (z a : Nat) : KeptByRequests (fun s => s.holdsRelease z a) where
  same _ lif h := State.holdsRelease_congr lif h
  origins {s f} fixes h := by
    obtain ⟨x, mem, telegram, below, alone⟩ := h
    have mapped : { x with origin := f x.origin } = x := by rw [telegram.2.2.2.2, fixes, ← telegram.2.2.2.2]
    refine ⟨x, List.mem_map.2 ⟨x, mem, mapped⟩, telegram, below, fun y listed same => ?_⟩
    obtain ⟨w, old, rfl⟩ := List.mem_map.1 listed
    rw [alone w old same]
    exact mapped
  request {s r} h := by
    unfold State.requestTx
    split
    · exact State.holdsRelease_placeTx r h
    · split
      · next v found =>
        exact State.holdsRelease_placeTx r (State.holdsRelease_congr (by simp) (State.holdsRelease_removeTx found h))
      · exact State.holdsRelease_congr (by simp) h

/-! ### A change handed on (R116) -/

theorem State.handOn_core (s : State) (z : Nat) (b : FireState) (y : Nat) : ((s.handOn z b).fire y).core = (s.fire y).core :=
  ((State.FireCore.kept s.fz.fire.length (fun y => (s.fire y).core)).handOn ⟨rfl, fun _ => rfl⟩).core y

/-- After the drive of the release output no step touches the LU. -/
theorem State.handOn_lu (s : State) (z : Nat) (b : FireState) :
    (s.handOn z b).lu = (if (s.fire z).state = .released then s.driveRelease z true
      else if b = .released then s.driveRelease z false else s).lu := by
  unfold State.handOn
  simp only [State.evalFireActive_frame, State.tellHatchEngine_frame, State.ordersFire_frame]
  by_cases released : (s.fire z).state = .released
  · simp only [released, if_true, State.quarantineZone_frame, State.settleFireHolds_frame]
    split
    · simp
    · split <;> simp
  · simp only [released, if_false, State.settleFireHolds_frame]
    split
    · simp
    · split <;> simp

theorem KeptByRequests.driveRelease {P : State → Prop} (k : KeptByRequests P) {on : Bool} (h : P s) : P (s.driveRelease z on) :=
  k.same (by simp) (by simp) h

/-- A change to NORMAL queues no RELEASE. -/
theorem KeptByRequests.handOn_normal {P : State → Prop} (k : KeptByRequests P) {b : FireState}
    (normal : (s.fire z).state = .normal) (h : P s) : P (s.handOn z b) := by
  unfold State.handOn
  simp only [normal, reduceCtorEq, if_false, FireState.isShutdown, Bool.false_and, Bool.false_eq_true, decide_true, Bool.true_and]
  have driven : P (if b = .released then s.driveRelease z false else s) :=
    iteInduction (fun _ => k.driveRelease h) (fun _ => h)
  have returned := iteInduction (c := b.isShutdown = true) (motive := P) (fun _ => k.returnPlant (z := z) driven)
    (fun _ => driven)
  exact k.evalFireActive (k.tellHatchEngine (k.ordersFire (k.settleFireHolds returned)))

/-- The steps of a release from COUNTDOWN: after the telegram the fire holds and the quarantine, then FIRE_ACTIVE. -/
theorem State.handOn_released (released : (s.fire z).state = .released) :
    ∃ as, s.handOn z .countdown
      = (((((s.driveRelease z true).queueRelease z).settleFireHolds as).quarantineZone z).tellHatchEngine z).evalFireActive := by
  unfold State.handOn
  simp only [released, if_true, FireState.isShutdown, reduceCtorEq, decide_false, Bool.or_self, Bool.and_false, Bool.false_eq_true,
    if_false, Bool.false_and]
  exact ⟨_, rfl⟩

theorem KeptByRequests.handOn_released {P : State → Prop} (k : KeptByRequests P) (released : (s.fire z).state = .released)
    (h : P ((s.driveRelease z true).queueRelease z)) : P (s.handOn z .countdown) := by
  obtain ⟨as, steps⟩ := State.handOn_released released
  rw [steps]
  exact k.evalFireActive (k.tellHatchEngine (k.quarantineZone (k.settleFireHolds h)))

/-! ### FIRE_RESET (R112) -/

theorem exec_fireReset_of_taken {d : Directive} {b : Byte} (taken : s.hasTakenVerified d) (body : d.body = [0x30#8, b])
    (small : b.toNat ≤ 15) : exec .fireReset s = .next (match s.judgeReset b.toNat with
      | some r => s.taken.conclude d r (s.fireBody b.toNat)
      | none => if (s.fire b.toNat).state = .normal then s.taken.conclude d .ok .empty
          else (s.taken.resetFire b.toNat).conclude d .ok .empty) := by
  refine congrArg Host.Outcome.next ((State.takeDirective_coded_verified taken body (by decide) _ _).trans ?_)
  rw [State.formed_coded 2 body rfl, leNat_one]
  dsimp only
  rw [if_neg (Nat.not_lt.2 small), show s.taken.judgeReset b.toNat = s.judgeReset b.toNat from rfl,
    show s.taken.fire b.toNat = s.fire b.toNat from rfl]
  cases s.judgeReset b.toNat with
  | some r => rfl
  | none =>
    dsimp only
    split <;> rfl

/-- The record of a zone that is reset (R112). -/
def Fire.reset (f : Fire) : Fire :=
  { f with state := .normal, knock := [], releaseFault := false, unconfirmed := false, pendingRelease := false, remaining := none,
           phase := 0 }

/-- A reset hands on a state that differs in the zone's record, the originators of its RELEASEs and the fault output alone. -/
theorem State.resetFire_eq (s : State) (z : Nat) :
    ∃ u : State, s.resetFire z = u.handOn z (s.fire z).state ∧ State.FireRuns z s u
      ∧ u.fz.fire = (s.setFire z (s.fire z).reset).fz.fire ∧ u.lu.release = s.lu.release := by
  have killed : State.FireRuns z (s.setFire z (s.fire z).reset) ((s.setFire z (s.fire z).reset).killRelease z) :=
    ⟨rfl, fun _ _ => rfl, rfl, rfl, rfl, rfl, rfl, rfl, rfl⟩
  have posted : State.FireRuns z s (((s.setFire z (s.fire z).reset).killRelease z).postFireState z (s.fire z).state .fireReset none) :=
    ((State.FireRuns.setFire s z (s.fire z).reset).trans killed).trans (State.FireRuns.post _ z _)
  unfold State.resetFire
  by_cases fault : (s.fire z).releaseFault = true
  · simp only [fault, if_true]
    exact ⟨_, rfl, posted.trans ((State.FireRuns.postReleaseFault _ z false).trans (State.FireRuns.evalFault _ z)), rfl, rfl⟩
  · simp only [fault]
    exact ⟨_, rfl, posted, rfl, rfl⟩

theorem State.judgeReset_active (state : (s.fire z).state = .preAlarm ∨ (s.fire z).state = .confirmed ∨ (s.fire z).state = .released) :
    s.judgeReset z = if (s.fire z).alarm ≠ [] ∨ (s.conditions z).panel = true then some .active else none := by
  unfold State.judgeReset
  rcases state with state | state | state <;> simp only [state]

/-- Settles O31: the rows of `State.judgeReset`, and a reset as the new record handed on, which queues nothing for a release. -/
theorem fireResetReturnsTheZone : Obligations.FireResetReturnsTheZone := by
  intro s d b shaped taken body small z s1 f refusal
  have row := exec_fireReset_of_taken taken body small
  have judged {r : Option Result} (verdict : s.judgeReset z = r) := verdict ▸ row
  refine ⟨fun normal => ?_, fun isolated => ?_, fun counting => ?_, fun state active => ?_, fun state silent panel => ?_⟩
  · rw [judged (r := none) (by unfold State.judgeReset; simp only [show (s.fire z).state = _ from normal])]
    exact congrArg _ (if_pos normal)
  · rw [judged (r := some .badState) (by unfold State.judgeReset; simp only [show (s.fire z).state = _ from isolated])]
    rfl
  · rw [judged (r := some .active) (by
      unfold State.judgeReset
      rcases counting with state | state <;> simp only [show (s.fire z).state = _ from state])]
    rfl
  · rw [judged ((State.judgeReset_active state).trans (if_pos active))]
    rfl
  · have place : z < s1.fz.fire.length := by
      rw [show s1.fz = s.fz from rfl, State.shaped_fire_length shaped]
      omega
    have quiet : ¬ ((s.fire z).alarm ≠ [] ∨ (s.conditions z).panel = true) := by
      rintro (heard | active)
      · exact heard silent
      · exact absurd (panel.symm.trans active) Bool.false_ne_true
    have resets : exec .fireReset s = .next ((s1.resetFire z).conclude d .ok .empty) := by
      rw [judged ((State.judgeReset_active state).trans (if_neg quiet))]
      refine congrArg _ (if_neg ?_)
      rcases state with state | state | state <;> rw [show (s.fire b.toNat).state = _ from state] <;> decide
    obtain ⟨u, steps, runs, fire, release⟩ := s1.resetFire_eq z
    have record : u.fire z = (s.fire z).reset := by
      rw [State.fire_congr fire]
      exact State.fire_setFire_same place _
    have core : ((s1.resetFire z).fire z).core = (s.fire z).reset.core := by
      rw [steps, State.handOn_core, record]
    have ended := (runs.trans (steps ▸ State.FireRuns.handOn u z (s1.fire z).state)).trans
      (State.FireRuns.conclude (s1.resetFire z) z d .ok .empty)
    refine ⟨_, resets, ?_, ?_, ?_, ?_, ?_, fun y other => ended.states other, ended.nt, ended.zt, ended.cu, ended.cs, ?_⟩
    case refine_6 =>
      intro ze q released zone line
      have lu : ((s1.resetFire z).conclude d .ok .empty).lu = (s1.resetFire z).lu := by simp
      have driven : u.releaseLine z = some q := by rw [State.releaseLine_eq ((runs.zone z).trans zone), line]
      rw [lu, steps, State.handOn_lu, record, if_neg (by simp [Fire.reset]),
        if_pos (show (s1.fire z).state = .released from released), State.driveRelease, driven]
      exact congrArg (fun l => List.set l q false) release
    all_goals rw [State.fire_conclude]
    · exact Fire.state_of_core core
    · exact Fire.knock_of_core core
    · exact (Fire.alarm_of_core core).trans silent
    · exact Fire.releaseFault_of_core core
    · rw [steps]
      refine (keptUnconfirmed z false).handOn_normal (by rw [record]; rfl) ?_
      rw [record]
      rfl

end Sys2Proof.Machine
end

section
/-! PROOFS. The expiry of a countdown: the release telegram, the quarantine, and the record of the released zone. -/

namespace Sys2Proof.Machine

variable {s : State} {z a : Nat}

/-! ### The release telegram (R21, R110, R111) -/

/-- The state in which the RELEASE telegram is asked for: no earlier telegram has an outcome, release-unconfirmed stands. -/
def State.releasing (s : State) (z : Nat) : State :=
  (s.killRelease z).setFire z { s.fire z with unconfirmed := true }

theorem State.queueRelease_eq (node : s.suppressionNode z = some a) :
    s.queueRelease z = (s.releasing z).requestTx (releaseRequest z a) := by
  have same : (s.killRelease z).suppressionNode z = some a := node
  unfold State.queueRelease
  simp only [same] <;> rfl

theorem State.mem_releasing {x : TxItem} (mem : x ∈ (s.releasing z).lif.txq) :
    ∃ y ∈ s.lif.txq, x.arrival = y.arrival ∧ x.state = y.state ∧ x.cls = y.cls := by
  obtain ⟨y, old, rfl⟩ := List.mem_map.1 (show x ∈ s.lif.txq.map _ from mem)
  exact ⟨y, old, rfl, rfl, rfl⟩

theorem State.releasing_length (s : State) (z : Nat) : (s.releasing z).lif.txq.length = s.lif.txq.length := List.length_map ..

theorem State.fire_releasing (place : z < s.fz.fire.length) :
    (s.releasing z).fire z = { s.fire z with unconfirmed := true } :=
  State.fire_setFire_same (s := s.killRelease z) place _

theorem State.queueRelease_unconfirmed (place : z < s.fz.fire.length) (node : s.suppressionNode z = some a) :
    ((s.queueRelease z).fire z).unconfirmed = true := by
  rw [State.queueRelease_eq node]
  exact (keptUnconfirmed z true).request (congrArg Fire.unconfirmed (State.fire_releasing place))

theorem State.queueRelease_placed (node : s.suppressionNode z = some a) (room : s.lif.txq.length < 24)
    (rising : s.arrivalsRising = true) : (s.queueRelease z).holdsRelease z a := by
  rw [State.queueRelease_eq node, State.requestTx_room (by rwa [State.releasing_length])]
  refine ⟨_, List.mem_append_right _ (List.mem_singleton.2 rfl), ⟨rfl, rfl, rfl, rfl, rfl⟩, Nat.lt_succ_self _,
    fun y listed same => ?_⟩
  rcases List.mem_append.1 listed with old | new
  · obtain ⟨x, mem, arrival, -⟩ := State.mem_releasing old
    exact absurd (arrival.symm.trans same) (Nat.ne_of_lt (State.arrivalsRising_below rising mem))
  · exact List.mem_singleton.1 new

theorem State.queueRelease_pending (place : z < s.fz.fire.length) (node : s.suppressionNode z = some a)
    (full : 24 ≤ s.lif.txq.length) (held : ∀ x ∈ s.lif.txq, x.state = .onLoop ∨ x.cls = .fire) :
    ((s.queueRelease z).fire z).pendingRelease = true := by
  have refused : ∀ x ∈ (s.releasing z).lif.txq, evictable (releaseRequest z a).cls x = false := by
    intro x mem
    obtain ⟨y, old, -, state, cls⟩ := State.mem_releasing mem
    rcases held y old with onLoop | fire
    · simp [evictable, state, onLoop]
    · simp [evictable, releaseRequest, cls, fire]
  rw [State.queueRelease_eq node, State.requestTx_refused (by rwa [State.releasing_length]) refused]
  have pending : (s.releasing z).dropped (releaseRequest z a).origin
      = (s.releasing z).setFire z { (s.releasing z).fire z with pendingRelease := true } := rfl
  rw [pending, State.fire_setFire_same]
  exact (List.length_set).symm ▸ place

/-! ### The cartridges (R139, R174, R180) -/

theorem Cartridge.marked_quarantine (c : Cartridge) : c.marked.quarantine = true := by
  unfold Cartridge.marked
  split <;> rfl

/-- The record at a place, and that no engine's list holds the place. -/
def State.unlisted (s : State) (i : Nat) (c : Cartridge) : Prop := s.cartridge i = some c ∧ ∀ h, i ∉ (s.engine h).list

theorem State.unlisted_congr {t : State} {i : Nat} {c : Cartridge} (cat : t.cat = s.cat) (first : t.he0 = s.he0)
    (second : t.he1 = s.he1) (h : s.unlisted i c) : t.unlisted i c :=
  ⟨by rw [State.cartridge, cat]; exact h.1, fun e => by rw [State.engine_congr first second]; exact h.2 e⟩

theorem State.cartridge_abortExchange_unlisted {i : Nat} {e : Hatch} {cause : HandoverCause} (out : i ∉ (s.engine e).list) :
    (s.abortExchange e cause).cartridge i = s.cartridge i := by
  have kept : (s.abortExchange e cause).cat = ((s.engine e).list.foldl State.abortOne s).cat := by
    unfold State.abortExchange
    dsimp only
    rw [(State.endExchange_frame ..).2.2.2.2.2.1]
    split
    · rfl
    · simp
  rw [State.cartridge, kept]
  exact (State.cartridge_foldl_abortOne _ s i).trans (if_neg out)

theorem State.cartridge_commitIn_unlisted {i : Nat} {e : Hatch} {cause : HandoverCause} (out : i ∉ (s.engine e).list) :
    (s.commitIn e cause).cartridge i = s.cartridge i := by
  unfold State.commitIn State.cartridge
  dsimp only
  rw [(State.endExchange_frame ..).2.2.2.2.2.1]
  simp only [State.dropHandoverClaim_frame]
  exact (State.cartridge_foldl_takeIn _ _ _ s i).trans (if_neg out)

theorem State.unlisted_engineFire {i : Nat} {c : Cartridge} (e : Hatch) (h : s.unlisted i c) : (s.engineFire e).unlisted i c := by
  have lists {v : State} (own : v.engine e = Engine.idle) (others : ∀ k, k ≠ e → v.engine k = s.engine k) (k : Hatch) :
      i ∉ (v.engine k).list := by
    by_cases same : k = e
    · subst same
      rw [own]
      exact List.not_mem_nil
    · rw [others k same]
      exact h.2 k
  unfold State.engineFire
  refine iteInduction (motive := fun v : State => v.unlisted i c) (fun _ => ?_)
    (fun _ => iteInduction (motive := fun v : State => v.unlisted i c) (fun _ => ?_) (fun _ => h))
  · exact ⟨(State.cartridge_abortExchange_unlisted (h.2 e)).trans h.1,
      lists (s.engine_abortExchange_same e _) fun k other => s.engine_abortExchange_other other _⟩
  · exact ⟨(State.cartridge_commitIn_unlisted (h.2 e)).trans h.1,
      lists (s.engine_commitIn_same e _) fun k other => s.engine_commitIn_other other _⟩

theorem State.unlisted_tellHatchEngine {i : Nat} {c : Cartridge} (h : s.unlisted i c) : (s.tellHatchEngine z).unlisted i c := by
  unfold State.tellHatchEngine
  split
  · next g _ => exact iteInduction (motive := fun v : State => v.unlisted i c) (fun _ => State.unlisted_engineFire g.hatch h) fun _ => h
  · exact h

theorem State.unlisted_evalFireActive {i : Nat} {c : Cartridge} (h : s.unlisted i c) : s.evalFireActive.unlisted i c := by
  unfold State.evalFireActive
  refine iteInduction (motive := fun v : State => v.unlisted i c) (fun _ => h) (fun _ => ?_)
  have alerted {b : Bool} : State.unlisted (if s.fz.pendingAlert then { s with fz := { s.fz with fireActive := b } }
      else ({ s with fz := { s.fz with fireActive := b } } : State).requestTx (alertRequest b)) i c :=
    iteInduction (motive := fun v : State => v.unlisted i c) (fun _ => State.unlisted_congr rfl rfl rfl h)
      (fun _ => State.unlisted_congr (by simp) (by simp) (by simp) h)
  have held {v : State} {as : List Nat} (h : v.unlisted i c) : (v.settleFireHolds as).unlisted i c :=
    State.unlisted_congr (by simp) (by simp) (by simp) h
  exact iteInduction (motive := fun v : State => v.unlisted i c)
    (fun _ => State.unlisted_engineFire .h1 (State.unlisted_engineFire .h0 (held alerted))) (fun _ => held alerted)

theorem State.unlisted_quarantineZone {i : Nat} {c : Cartridge} (w : Table.wf s.cat.cartridges = true) (h : s.unlisted i c) :
    (s.quarantineZone z).unlisted i (if c.quarantinedIn z then c.marked else c) :=
  ⟨State.cartridge_quarantineZone w h.1, fun e => by
    rw [State.engine_congr (s := s) (by simp) (by simp)]
    exact h.2 e⟩

/-- What a release leaves at a place that no engine holds: the record, marked where its zone is the released one. -/
theorem State.unlisted_handOn {i : Nat} {c : Cartridge} (released : (s.fire z).state = .released)
    (w : Table.wf s.cat.cartridges = true) (h : s.unlisted i c) :
    (s.handOn z .countdown).unlisted i (if c.quarantinedIn z then c.marked else c) := by
  obtain ⟨as, steps⟩ := State.handOn_released released
  rw [steps]
  have before : (((s.driveRelease z true).queueRelease z).settleFireHolds as).unlisted i c :=
    State.unlisted_congr (by simp) (by simp) (by simp) h
  exact State.unlisted_evalFireActive (State.unlisted_tellHatchEngine (State.unlisted_quarantineZone (by simpa using w) before))

/-! ### The expiry (R106, R109) -/

/-- The state that an expiry hands on: the zone RELEASED, the notice posted. -/
def State.expired (s : State) (z : Nat) : State :=
  (s.setFire z { s.fire z with state := .released, remaining := none, phase := 0 }).postFireState z .countdown .expiry none

theorem exec_countdownExpiry_due (counting : (s.fire z).state = .countdown) (due : (s.fire z).remaining = some 0) :
    exec (.countdownExpiry z) s = .next ((s.expired z).handOn z .countdown) := by
  refine congrArg Host.Outcome.next ((if_pos ⟨counting, due⟩).trans ?_)
  unfold State.changeFire
  rw [counting]
  rfl

/-- Settles O30: the expiry's steps by `State.handOn_released`; the telegram, once queued or pending, is kept by every step
after it, as a request of the FIRE class is the highest. -/
theorem expiryReleasesTheAgent : Obligations.ExpiryReleasesTheAgent := by
  intro s z ze shaped small zone
  refine ⟨fun counting due => ?_, fun early => congrArg Host.Outcome.next (if_neg (not_and_or.2 early))⟩
  have place : z < s.fz.fire.length := by
    rw [State.shaped_fire_length shaped]
    exact small
  have record : (s.expired z).fire z = { s.fire z with state := .released, remaining := none, phase := 0 } :=
    State.fire_setFire_same place _
  have released : ((s.expired z).fire z).state = .released := by rw [record]
  have runs : State.FireRuns z s (s.expired z) := (State.FireRuns.setFire s z _).trans (State.FireRuns.post _ z _)
  have ended := runs.trans (State.FireRuns.handOn (s.expired z) z .countdown)
  have core : (((s.expired z).handOn z .countdown).fire z).core
      = ({ s.fire z with state := .released, remaining := none, phase := 0 } : Fire).core := by
    rw [State.handOn_core, record]
  have state : (((s.expired z).handOn z .countdown).fire z).state = .released := Fire.state_of_core core
  have node {a : Nat} (named : s.suppressionNode z = some a) : ((s.expired z).driveRelease z true).suppressionNode z = some a := by
    rw [State.suppressionNode, (State.driveRelease_frame ..).2.2.1]
    exact named
  have drivenPlace : z < ((s.expired z).driveRelease z true).fz.fire.length := by
    rw [(State.driveRelease_frame ..).2.2.2.2.2.2.1, runs.size]
    exact place
  have drivenLif : ((s.expired z).driveRelease z true).lif = s.lif := by
    rw [(State.driveRelease_frame ..).2.1]
    rfl
  refine ⟨_, exec_countdownExpiry_due counting due, state, (Fire.remaining_of_core core :), ?_, ?_, fun named => ?_, fun a named =>
    ⟨fun room rising => ?_, fun full held => ?_⟩, fun w i c present unlisted => ?_, fun y other => ended.states other, ended.nt,
    ended.zt, ended.cu, ended.cs⟩
  · rw [State.handOn_lu, if_pos released, State.driveRelease, State.releaseLine_eq ((runs.zone z).trans zone)]
    cases ze.fire.line <;> rfl
  · exact (State.Told.handOn _ z _).active (by rw [ended.size]; exact place) (by rw [state]; rfl)
  · obtain ⟨a, named⟩ := Option.isSome_iff_exists.1 named
    exact (keptUnconfirmed z true).handOn_released released (State.queueRelease_unconfirmed drivenPlace (node named))
  · have placed := (keptHolds z a).handOn_released released
      (State.queueRelease_placed (node named) (by rwa [drivenLif]) (by rwa [State.arrivalsRising, drivenLif]))
    obtain ⟨x, mem, telegram, -⟩ := placed
    exact ⟨x, mem, telegram⟩
  · exact (keptPending z).handOn_released released
      (State.queueRelease_pending drivenPlace (node named) (by rwa [drivenLif]) (by rwa [drivenLif]))
  · have left := State.unlisted_handOn (s := s.expired z) released w ⟨present, unlisted⟩
    have iff := c.quarantinedIn_iff z
    refine ⟨fun here => ?_, fun away => ?_⟩
    · refine ⟨_, left.1, ?_⟩
      cases quarantine : c.quarantine with
      | true => split <;> simp [Cartridge.marked_quarantine, quarantine]
      | false => rw [if_pos (iff.2 ⟨here, quarantine⟩), Cartridge.marked_quarantine]
    · rw [left.1, if_neg fun marked => away (iff.1 marked).1]

end Sys2Proof.Machine
end
